-- ==== Sys2Proof/Word.lean ====
section
/-! DEFINITION. The word types of the block: every register and every byte that software or the wire sees as bits. -/

namespace Sys2Proof

/-- "A byte is 8 bits" (00_scope.md R7). -/
abbrev Byte := BitVec 8

/-- The 16-bit words: `RADDR`, `QTY`, `CRCREG` and the CRC register `r` (10_state.md R20, 40_crc_engine.md R120). -/
abbrev Half := BitVec 16

/-- `CFG_WIDE`, the protocol profile: `WIDE_ADDR` = bits 7:0, `WIDE_EN` = bit 8 (10_state.md R26). -/
abbrev Profile := BitVec 9

end Sys2Proof
end

