-- ==== Sys2Proof/Machine/Crc.lean ====
section
/-! DEFINITION. The CRC Engine's functions (40_crc_engine.md R120 to R124) and the byte orders of the wire (00_scope.md R9). -/

namespace Sys2Proof

/-- `be2(v)`: high byte first (00_scope.md R9). -/
def be2 (v : Half) : List Byte := [v.extractLsb' 8 8, v.extractLsb' 0 8]

/-- `le2(v)`: low byte first (00_scope.md R9). -/
def le2 (v : Half) : List Byte := [v.extractLsb' 0 8, v.extractLsb' 8 8]

/-- The 16-bit number whose bytes are `hi`, `lo`. -/
def half (hi lo : Byte) : Half := hi ++ lo

/-- `take(n, s)` from the other end: `droplast(n, s)` is `s` without its last `n` bytes (00_scope.md R9). -/
def dropLastN (n : Nat) (s : List Byte) : List Byte := s.take (s.length - n)

/-- One turn of the loop that makes the table: "if c[0] = 1 then c <- (c >> 1) ^ 0xA001 else c <- c >> 1"
(40_crc_engine.md R121). -/
def crcShift (c : Half) : Half := if c.getLsbD 0 then (c >>> 1) ^^^ 0xA001#16 else c >>> 1

/-- `T[i]`: eight turns from `zext_16(i)` (40_crc_engine.md R121). -/
def crcTable (i : Byte) : Half :=
  crcShift (crcShift (crcShift (crcShift (crcShift (crcShift (crcShift (crcShift (i.setWidth 16))))))))

/-- The update step for one byte: index `(r ^ zext_16(b)) & 0xFF`, then `(r >> 8) ^ T[idx]` (40_crc_engine.md R122). -/
def crcStep (r : Half) (b : Byte) : Half := (r >>> 8) ^^^ crcTable ((r ^^^ b.setWidth 16).setWidth 8)

/-- The initial register (40_crc_engine.md R120). -/
def crcInit : Half := 0xFFFF#16

/-- `crc16(s)`: the step over the bytes in order, no final XOR (40_crc_engine.md R123). -/
def crc16 (s : List Byte) : Half := s.foldl crcStep crcInit

/-- `crc16_bytes(s)`: "the "2 bytes" of the contract, low byte first" (40_crc_engine.md R123). -/
def crc16Bytes (s : List Byte) : List Byte := le2 (crc16 s)

/-- A frame: its bytes and then their CRC (30_encoding.md R91, R99). -/
def sealFrame (s : List Byte) : List Byte := s ++ crc16Bytes s

/-- `verify(s)`: false below two bytes, else the CRC of all but the last two bytes against those two read low byte first
(40_crc_engine.md R124). -/
def verify (s : List Byte) : Bool :=
  match s.drop (s.length - 2) with
  | [lo, hi] => crc16 (dropLastN 2 s) == half hi lo
  | _ => false

end Sys2Proof
end

