-- ==== Sys2Proof/Syntax.lean ====
section
/-! DEFINITION. The instructions of the block, one constructor per row of the opcode table (30_encoding.md R90, R110), and the refusals of the decoder. -/

namespace Sys2Proof

/-- An "instruction" of the block: "a host command (6 codes, rule R106), a request kind selected by the function code
(4 codes in two widths, rule R96), a response class (2, rule R97 and rule R98), a decoder mode (3, rule R107)"
(30_encoding.md R90). -/
inductive Instr where
  /-- Host command 0x01 (40_crc_engine.md R125). -/
  | crc16
  /-- Host command 0x02 (40_crc_engine.md R126). -/
  | verify
  /-- Host command 0x03 (41_frame_codec.md R142). -/
  | encode
  /-- Host command 0x04 (41_frame_codec.md R143). -/
  | decrsp
  /-- Host command 0x05 (42_transaction_executor.md R151). -/
  | xact
  /-- Host command 0x06 (43_register_decoder.md R187). -/
  | decode
  /-- RDH.N, function code 0x03 in format RN (30_encoding.md R92, 41_frame_codec.md R132). -/
  | rdhN (slave : Byte) (raddr : Half) (qty : Byte)
  /-- RDH.W, function code 0x03 in format RW (30_encoding.md R93, 41_frame_codec.md R132). -/
  | rdhW (slave : Byte) (raddr qty : Half)
  /-- RDI.N, function code 0x04 in format RN (30_encoding.md R92, 41_frame_codec.md R133). -/
  | rdiN (slave : Byte) (raddr : Half) (qty : Byte)
  /-- RDI.W, function code 0x04 in format RW (30_encoding.md R93, 41_frame_codec.md R133). -/
  | rdiW (slave : Byte) (raddr qty : Half)
  /-- WRS, function code 0x06 in format WS; `QTY` is the payload's length (30_encoding.md R94, 41_frame_codec.md R136). -/
  | wrs (slave : Byte) (raddr : Half) (payload : List Byte)
  /-- WRM, function code 0x10 in format WM; `QTY` is the payload's length (30_encoding.md R95, 41_frame_codec.md R135). -/
  | wrm (slave : Byte) (raddr : Half) (payload : List Byte)
  /-- EXC.03: byte 0, byte 2 (the exception code) and the bytes after it of an exception response to a request 0x03
  (30_encoding.md R98, 41_frame_codec.md R140). -/
  | exc03 (addr code : Byte) (tail : List Byte)
  /-- EXC.04: the same for a request 0x04. -/
  | exc04 (addr code : Byte) (tail : List Byte)
  /-- EXC.06: the same for a request 0x06. -/
  | exc06 (addr code : Byte) (tail : List Byte)
  /-- EXC.10: the same for a request 0x10. -/
  | exc10 (addr code : Byte) (tail : List Byte)
  /-- RSP: every response the EXC row of the requested code does not match, whole (30_encoding.md R97, R110). -/
  | rsp (raw : List Byte)
  /-- DEC.HEX, `DESC` = s0: the bit `SGN` is carried and ignored (30_encoding.md R107, 43_register_decoder.md R184). -/
  | decHex (sgn : Bool)
  /-- DEC.U, `DESC` = 01 (43_register_decoder.md R183). -/
  | decU
  /-- DEC.S, `DESC` = 11 (43_register_decoder.md R185). -/
  | decS
  deriving DecidableEq, Repr

/-- The four code spaces of the opcode table (30_encoding.md R110), each with what its decoding depends on besides the
bytes. -/
inductive Space where
  /-- The byte written to `CMD`. -/
  | command
  /-- A request frame, under a protocol profile `CFG_WIDE` (the wide test, 41_frame_codec.md R134). -/
  | request (profile : Profile)
  /-- A response, to a request with function code `fc` (41_frame_codec.md R140). -/
  | response (fc : Byte)
  /-- The value of `DESC`. -/
  | mode
  deriving DecidableEq, Repr

/-- Why bits are no instruction. -/
inductive DecodeError where
  /-- A command code outside 0x01 to 0x06 (30_encoding.md R105). -/
  | illegalCmd
  /-- A function code outside 0x03, 0x04, 0x06, 0x10 (30_encoding.md R104). -/
  | illegalFc
  /-- A quantity that does not fit its field (41_frame_codec.md R137). -/
  | badQty
  /-- A number of bytes, or a value wider than its register, that no row of the space has (30_encoding.md R90). -/
  | badLength
  /-- A request frame whose last two bytes are not the CRC of the others (30_encoding.md R99). -/
  | badCrc
  deriving DecidableEq, Repr

/-- The operand registers `encode_request` takes its arguments from: `SLAVE`, `FC`, `RADDR`, `QTY`, the first `QTY`
bytes of `WBUF` and the profile `CFG_WIDE` (41_frame_codec.md R130). -/
structure RequestOperands where
  slave : Byte
  fc : Byte
  raddr : Half
  qty : Half
  payload : List Byte
  profile : Profile
  deriving DecidableEq, Repr

end Sys2Proof
end

