-- ==== Sys2Proof/Config.lean ====
section
/-! DEFINITION. What is fixed for one block: the parameters of 00_scope.md R5, over which claims quantify, and the free values: opaque constants with no body, of which no proof can know a value. -/

namespace Sys2Proof

/-- The named parameters of 00_scope.md R5 that fix sizes: "A model should take each as a field of its configuration so that a
claim can quantify over it". A state holds them as its field `params`, which no step changes (log 22). -/
structure Params where
  /-- `P_BUDGET_W`: width in bits of `CFG_BUDGET`, and of `ATTEMPTS`, which never exceeds it. -/
  budgetW : Nat
  /-- `P_RX_MAX`: capacity of `RXBUF`, the longest response the block can hold. -/
  rxMax : Nat
  /-- `P_W_MAX`: capacity of `WBUF`, the longest write payload. -/
  wMax : Nat
  /-- `P_TX_MAX`: capacity of `TXBUF`, the longest request frame. -/
  txMax : Nat
  /-- `P_PAY_MAX`: capacity of `PBUF`, the longest payload. -/
  payMax : Nat
  /-- `P_VAL_BYTES`: the longest payload the decimal decoder converts; `DVAL` is `8 x P_VAL_BYTES` bits wide. -/
  valBytes : Nat
  /-- `P_H_MAX`: capacity of `HBUF`, the longest hex string. -/
  hexMax : Nat
  deriving DecidableEq, Repr

/-- The values the spec takes (00_scope.md R5). -/
def Params.spec : Params where
  budgetW := 8
  rxMax := 256
  wMax := 255
  txMax := 262
  payMax := 251
  valBytes := 8
  hexMax := 504

/-- The relations by which 00_scope.md R5 derives four of the parameters: a 1-byte quantity field counts at most 255 bytes, the
longest frame is 1+1+2+1+255+2, the longest payload is `P_RX_MAX` minus 5, the longest hex string is 2 + 2 x `P_PAY_MAX`. The
others, `P_BUDGET_W`, `P_RX_MAX` and `P_VAL_BYTES`, may be any number. -/
structure Params.Legal (c : Params) : Prop where
  wMax_eq : c.wMax = 255
  txMax_eq : c.txMax = 1 + 1 + 2 + 1 + c.wMax + 2
  payMax_eq : c.payMax = c.rxMax - 5
  hexMax_eq : c.hexMax = 2 + 2 * c.payMax

/-- What the channel answers to one call: `fail`, or `ok`, with the bytes `r` that a read returns; "For each call the model
draws `ok` or `fail`, and for `ChanRead` any byte sequence `r` of any length" (20_memory.md R66; log 3). A flush and a write
look at `ok` or `fail` alone. -/
inductive ChanDraw where
  | fail
  | ok (r : List Byte)
  deriving DecidableEq, Repr, Inhabited

namespace Config

/-- FREE VALUE. The channel's answer to the `n`-th call for which the list `chan` of the state holds none: "The answers of the
channel are free inputs of the model" (20_memory.md R66; log 3). -/
opaque chanDraw : Nat → ChanDraw

/-- FREE VALUE. What byte `i` of buffer number `b` holds after the `n`-th reset until something writes it: buffer contents
are "unspecified" after reset (10_state.md R43; log 6). -/
opaque bufferByte (n b i : Nat) : Byte

/-- FREE VALUE. What the `n`-th host read that the spec leaves unspecified returns, before it is cut to the width of what
was read (10_state.md R40, R44; logs 7, 8 and 9). -/
opaque freeRead : Nat → Nat

/-- `T_SETTLE`, OPEN: "no rule of the model depends on how long it is" (00_scope.md R5, R10; log 22). -/
opaque settle : Nat

/-- `T_RD_TIMEOUT`, OPEN: the channel's read timeout, a parameter of the Port Session (00_scope.md R5; log 22). -/
opaque readTimeout : Nat

/-- `BAUD`, OPEN: the channel's baud rate, outside the block (00_scope.md R5; log 22). -/
opaque baud : Nat

end Config

end Sys2Proof
end

