-- ==== Sys2Proof/WellFormed.lean ====
section
/-! DEFINITION. Which terms of `Instr` are instructions: the bounds the formats of 30_encoding.md put on a list operand. -/

namespace Sys2Proof

/-- A write payload's length is its quantity: "0 <= `q` <= 255" (30_encoding.md R94, R95). -/
def payloadOk (payload : List Byte) : Bool := payload.length ≤ 255

/-- What follows byte 2 of an exception response: "at least 5" bytes in all (30_encoding.md R90) and at most what `RXBUF`
holds (10_state.md R37). -/
def excTailOk (c : Params) (tail : List Byte) : Bool := 2 ≤ tail.length && tail.length + 3 ≤ c.rxMax

/-- A response has at most what `RXBUF` holds (10_state.md R37). -/
def responseOk (c : Params) (raw : List Byte) : Bool := raw.length ≤ c.rxMax

/-- Well-formed instructions, for a block with parameters `c`. -/
def Instr.wf (c : Params) : Instr → Bool
  | .crc16 => true
  | .verify => true
  | .encode => true
  | .decrsp => true
  | .xact => true
  | .decode => true
  | .rdhN _ _ _ => true
  | .rdhW _ _ _ => true
  | .rdiN _ _ _ => true
  | .rdiW _ _ _ => true
  | .wrs _ _ payload => payloadOk payload
  | .wrm _ _ payload => payloadOk payload
  | .exc03 _ _ tail => excTailOk c tail
  | .exc04 _ _ tail => excTailOk c tail
  | .exc06 _ _ tail => excTailOk c tail
  | .exc10 _ _ tail => excTailOk c tail
  | .rsp raw => responseOk c raw
  | .decHex _ => true
  | .decU => true
  | .decS => true

end Sys2Proof
end

