-- ==== Sys2Proof/Decode.lean ====
section
/-! DEFINITION. The decoders of the four code spaces (30_encoding.md R90 to R110), total on any bytes and rejecting by name; after them the encoder. -/

namespace Sys2Proof

/-- Field `WIDE_ADDR` of `CFG_WIDE` (10_state.md R26). -/
def wideAddr (p : Profile) : Byte := p.extractLsb' 0 8

/-- Field `WIDE_EN` of `CFG_WIDE` (10_state.md R26). -/
def wideEn (p : Profile) : Bool := p.getLsbD 8

/-- A read function code: "0x03 and 0x04 are read functions" (41_frame_codec.md R131). -/
def isReadFc (fc : Byte) : Bool := fc == 0x03#8 || fc == 0x04#8

/-- A write function code: "0x06 and 0x10 are write functions" (41_frame_codec.md R131). -/
def isWriteFc (fc : Byte) : Bool := fc == 0x06#8 || fc == 0x10#8

/-- The wide test (41_frame_codec.md R134). -/
def isWide (slave fc : Byte) (p : Profile) : Bool := isReadFc fc && wideEn p && slave == wideAddr p

/-- The command codes (30_encoding.md R106); the others are reserved (R105). -/
def decodeCommand (c : Byte) : Except DecodeError Instr :=
  if c = 0x01#8 then .ok .crc16
  else if c = 0x02#8 then .ok .verify
  else if c = 0x03#8 then .ok .encode
  else if c = 0x04#8 then .ok .decrsp
  else if c = 0x05#8 then .ok .xact
  else if c = 0x06#8 then .ok .decode
  else .error .illegalCmd

/-- The decoder mode `DESC[1:0]` selects (30_encoding.md R107, 43_register_decoder.md R182). -/
def decodeMode (d : BitVec 2) : Instr :=
  if d.getLsbD 0 then (if d.getLsbD 1 then .decS else .decU) else .decHex (d.getLsbD 1)

/-- A request of format RN. -/
def narrowRead (fc slave : Byte) (raddr : Half) (qty : Byte) : Except DecodeError Instr :=
  if fc = 0x03#8 then .ok (.rdhN slave raddr qty)
  else if fc = 0x04#8 then .ok (.rdiN slave raddr qty)
  else .error .illegalFc

/-- A request of format RW. -/
def wideRead (fc slave : Byte) (raddr qty : Half) : Except DecodeError Instr :=
  if fc = 0x03#8 then .ok (.rdhW slave raddr qty)
  else if fc = 0x04#8 then .ok (.rdiW slave raddr qty)
  else .error .illegalFc

/-- The request a frame's bytes between the header and the CRC stand for, by the table of 30_encoding.md R90: "from the
function code, the wide test and `QTY`" (R103). -/
def decodeBody (p : Profile) (slave fc : Byte) (raddr : Half) (body : List Byte) : Except DecodeError Instr :=
  if isReadFc fc then
    if isWide slave fc p then
      match body with
      | [qh, ql] => wideRead fc slave raddr (half qh ql)
      | _ => .error .badLength
    else
      match body with
      | [q] => narrowRead fc slave raddr q
      | _ => .error .badLength
  else if fc = 0x06#8 then
    if payloadOk body then .ok (.wrs slave raddr body) else .error .badLength
  else if fc = 0x10#8 then
    match body with
    | q :: payload => if payload.length = q.toNat then .ok (.wrm slave raddr payload) else .error .badLength
    | [] => .error .badLength
  else .error .illegalFc

/-- A request frame (30_encoding.md R91): address, function code, register address high byte first, body, CRC. -/
def decodeFrame (p : Profile) (frame : List Byte) : Except DecodeError Instr :=
  match frame with
  | slave :: fc :: ah :: al :: rest =>
    if rest.length < 2 then .error .badLength
    else if verify frame then decodeBody p slave fc (half ah al) (dropLastN 2 rest)
    else .error .badCrc
  | _ => .error .badLength

/-- The class of a response to a request with function code `fc`: an exception response when at least 5 bytes long and
byte 1 is `fc` with bit 7 set, one row for each of the four codes; RSP "matches everything the EXC row of the requested code
does not" (30_encoding.md R98, R110, 41_frame_codec.md R140). -/
def classify (fc : Byte) (raw : List Byte) : Instr :=
  match raw with
  | addr :: f :: code :: tail =>
    if 2 ≤ tail.length then
      if fc = 0x03#8 ∧ f = 0x83#8 then .exc03 addr code tail
      else if fc = 0x04#8 ∧ f = 0x84#8 then .exc04 addr code tail
      else if fc = 0x06#8 ∧ f = 0x86#8 then .exc06 addr code tail
      else if fc = 0x10#8 ∧ f = 0x90#8 then .exc10 addr code tail
      else .rsp raw
    else .rsp raw
  | _ => .rsp raw

/-- The decoder: one code space, any bytes (30_encoding.md R110). -/
def decode (sp : Space) (bytes : List Byte) : Except DecodeError Instr :=
  match sp with
  | .command =>
    match bytes with
    | [c] => decodeCommand c
    | _ => .error .badLength
  | .request p => decodeFrame p bytes
  | .response fc => .ok (classify fc bytes)
  | .mode =>
    match bytes with
    | [d] => if d.toNat < 4 then .ok (decodeMode (d.setWidth 2)) else .error .badLength
    | _ => .error .badLength

/-- The request the operand registers stand for: the function code and the wide test select the row, and the checks of
41_frame_codec.md R137 come first, in the rule's order. -/
def selectRequest (o : RequestOperands) : Except DecodeError Instr :=
  if isReadFc o.fc then
    if isWide o.slave o.fc o.profile then wideRead o.fc o.slave o.raddr o.qty
    else if 255 < o.qty.toNat then .error .badQty
    else narrowRead o.fc o.slave o.raddr (o.qty.setWidth 8)
  else if isWriteFc o.fc then
    if 255 < o.qty.toNat then .error .badQty
    else if o.fc = 0x06#8 then .ok (.wrs o.slave o.raddr (o.payload.take o.qty.toNat))
    else .ok (.wrm o.slave o.raddr (o.payload.take o.qty.toNat))
  else .error .illegalFc

/-- The bytes of an instruction, from the encoding tables of the spec: the command code (30_encoding.md R106), the frame
(R92 to R95), the response (R97, R98), the value of `DESC` (R107). -/
def encode : Instr → List Byte
  | .crc16 => [0x01#8]
  | .verify => [0x02#8]
  | .encode => [0x03#8]
  | .decrsp => [0x04#8]
  | .xact => [0x05#8]
  | .decode => [0x06#8]
  | .rdhN slave raddr qty =>
    sealFrame [slave, 0x03#8, raddr.extractLsb' 8 8, raddr.extractLsb' 0 8, qty]
  | .rdhW slave raddr qty =>
    sealFrame [slave, 0x03#8, raddr.extractLsb' 8 8, raddr.extractLsb' 0 8, qty.extractLsb' 8 8, qty.extractLsb' 0 8]
  | .rdiN slave raddr qty =>
    sealFrame [slave, 0x04#8, raddr.extractLsb' 8 8, raddr.extractLsb' 0 8, qty]
  | .rdiW slave raddr qty =>
    sealFrame [slave, 0x04#8, raddr.extractLsb' 8 8, raddr.extractLsb' 0 8, qty.extractLsb' 8 8, qty.extractLsb' 0 8]
  | .wrs slave raddr payload =>
    sealFrame ([slave, 0x06#8, raddr.extractLsb' 8 8, raddr.extractLsb' 0 8] ++ payload)
  | .wrm slave raddr payload =>
    sealFrame ([slave, 0x10#8, raddr.extractLsb' 8 8, raddr.extractLsb' 0 8, BitVec.ofNat 8 payload.length] ++ payload)
  | .exc03 addr code tail => addr :: 0x83#8 :: code :: tail
  | .exc04 addr code tail => addr :: 0x84#8 :: code :: tail
  | .exc06 addr code tail => addr :: 0x86#8 :: code :: tail
  | .exc10 addr code tail => addr :: 0x90#8 :: code :: tail
  | .rsp raw => raw
  | .decHex sgn => [if sgn then 0x02#8 else 0x00#8]
  | .decU => [0x01#8]
  | .decS => [0x03#8]

/-- A row of the command space. -/
def Space.isCommand : Space → Bool
  | .command => true
  | .request _ => false
  | .response _ => false
  | .mode => false

/-- A row of the mode space. -/
def Space.isMode : Space → Bool
  | .command => false
  | .request _ => false
  | .response _ => false
  | .mode => true

/-- A row of the request space whose condition on the profile holds. -/
def Space.isRequest (cond : Profile → Bool) : Space → Bool
  | .command => false
  | .request p => cond p
  | .response _ => false
  | .mode => false

/-- A row of the response space whose condition on the requested code holds. -/
def Space.isResponse (cond : Byte → Bool) : Space → Bool
  | .command => false
  | .request _ => false
  | .response fc => cond fc
  | .mode => false

/-- Whether an instruction is one of the space: the wide test must select its format, and a response must be classed as
it says (the column "condition" of the opcode table). -/
def Instr.inSpace (i : Instr) (sp : Space) : Bool :=
  match i with
  | .crc16 => sp.isCommand
  | .verify => sp.isCommand
  | .encode => sp.isCommand
  | .decrsp => sp.isCommand
  | .xact => sp.isCommand
  | .decode => sp.isCommand
  | .rdhN slave _ _ => sp.isRequest fun p => !isWide slave 0x03#8 p
  | .rdhW slave _ _ => sp.isRequest fun p => isWide slave 0x03#8 p
  | .rdiN slave _ _ => sp.isRequest fun p => !isWide slave 0x04#8 p
  | .rdiW slave _ _ => sp.isRequest fun p => isWide slave 0x04#8 p
  | .wrs _ _ _ => sp.isRequest fun _ => true
  | .wrm _ _ _ => sp.isRequest fun _ => true
  | .exc03 _ _ _ => sp.isResponse fun fc => fc == 0x03#8
  | .exc04 _ _ _ => sp.isResponse fun fc => fc == 0x04#8
  | .exc06 _ _ _ => sp.isResponse fun fc => fc == 0x06#8
  | .exc10 _ _ _ => sp.isResponse fun fc => fc == 0x10#8
  | .rsp raw => sp.isResponse fun fc => classify fc raw == .rsp raw
  | .decHex _ => sp.isMode
  | .decU => sp.isMode
  | .decS => sp.isMode

/-- The frame bytes a number of the opcode table's numbering stands for. The table numbers a frame row's match byte (frame
byte 1) as bits 7:0; where the number's second byte is not zero it is read as a whole frame, byte 0 first (log 18). -/
def tableBytes (n w : Nat) : List Byte :=
  if w / 256 % 256 = 0 then [0x00#8, BitVec.ofNat 8 w] ++ List.replicate (n - 2) 0x00#8
  else (List.range n).map fun i => BitVec.ofNat 8 (w / 256 ^ i)

/-- The frame row of the opcode table with match byte `m`, of `n` bytes with the CRC made good: a request under the profile
that selects the format of that length, or a response to the request its match byte names. -/
def decodeTableFrame (n : Nat) (bytes : List Byte) : Option Instr :=
  let slave : Byte := bytes.headD 0x00#8
  let m : Byte := bytes.tail.headD 0x00#8
  let profile : Profile := if n = 8 ∧ isReadFc m then 0x100#9 ||| slave.setWidth 9 else 0x000#9
  if isReadFc m ∨ isWriteFc m then (decode (.request profile) (sealFrame (dropLastN 2 bytes))).toOption
  else if m.getLsbD 7 then (decode (.response (m &&& 0x7F#8)) bytes).toOption
  else (decode (.response 0x03#8) bytes).toOption

/-- The length in bytes of the frame row with match byte `m` when the table gives it no operand bytes
(30_encoding.md R90). -/
def tableFrameLength (m : Nat) : Nat :=
  if m = 0x03 ∨ m = 0x04 ∨ m = 0x10 then 7 else if m = 0x06 then 6 else 5

/-- The instruction the decoder reads from a word numbered as the opcode table numbers it (log 18). A word of at most 2 bits
is a value of `DESC`. A word of at most 8 bits is a command code where one matches, else the match byte of a frame row, else
0 is the value of `DESC` that selects DEC.HEX. A longer word is a frame. -/
def decodeTableWord (nbits w : Nat) : Option Instr :=
  if nbits ≤ 2 then (decode .mode [BitVec.ofNat 8 w]).toOption
  else if nbits ≤ 8 then
    match decode .command [BitVec.ofNat 8 w] with
    | .ok i => some i
    | .error _ =>
      if w = 0 then (decode .mode [0x00#8]).toOption
      else if w = 0x10 ∨ w = 0x83 ∨ w = 0x84 ∨ w = 0x86 ∨ w = 0x90 then
        decodeTableFrame (tableFrameLength w) (tableBytes (tableFrameLength w) w)
      else none
  else decodeTableFrame ((nbits + 7) / 8) (tableBytes ((nbits + 7) / 8) w)

end Sys2Proof
end

