-- ==== Sys2Proof/Machine/State.lean ====
section
/-! DEFINITION. The state of the block (10_state.md R20 to R44), of the channel's receive side, and of the inputs still to come; the reasons a step can stop; the state after reset. -/

namespace Sys2Proof.Machine

/-- `XSTATE` (10_state.md R22). -/
inductive XState where
  /-- 0: no transaction started since reset. -/
  | idle
  /-- 1: a transaction is running. -/
  | attempt
  /-- 2: the latest transaction ended with an accepted response. -/
  | success
  /-- 3: the latest transaction used its whole budget. -/
  | exhausted
  deriving DecidableEq, Repr, Inhabited

/-- `PHASE`: "BUILD = 0 ... FLUSH = 1 ... WRITE = 2 ... READ = 3 ... CHECK = 4 ... Values 5 to 7 are never taken"
(10_state.md R23). -/
inductive Phase where
  | build
  | flush
  | write
  | read
  | check
  deriving DecidableEq, Repr, Inhabited

/-- The codes of `CAUSE`, 0 to 6 in this order; 7 is "never written" (60_exceptions.md R201). -/
inductive Cause where
  | none
  | transport
  | empty
  | short
  | overflow
  | exception
  | crc
  deriving DecidableEq, Repr, Inhabited

/-- The codes of `STATUS.ERR`, 0 to 4 in this order; 5 to 7 are "never written" (60_exceptions.md R208). -/
inductive ErrCode where
  | ok
  | illegalCmd
  | illegalFc
  | badQty
  | badLen
  deriving DecidableEq, Repr, Inhabited

/-- The five byte buffers (10_state.md R37). -/
inductive Buf where
  | wbuf
  | txbuf
  | rxbuf
  | pbuf
  | hbuf
  deriving DecidableEq, Repr, Inhabited

/-- The numbered registers of the host bus, 0x00 to 0x11 in this order (10_state.md R20). -/
inductive Reg where
  | cmd
  | status
  | cfgBudget
  | cfgWide
  | slave
  | fc
  | raddr
  | qty
  | desc
  | attempts
  | cause
  | excode
  | crcreg
  | txlen
  | rxlen
  | plen
  | hlen
  | dval
  deriving DecidableEq, Repr, Inhabited

/-- What the outside world does to the block, one event each (00_scope.md R6, 30_encoding.md R108, 70_reset_and_hazards.md
R230; log 1). Register numbers, indices and values are whatever the host puts on the bus (10_state.md R44). -/
inductive Input where
  /-- Host write of a register, `SET` (30_encoding.md R108). -/
  | write (reg value : Nat)
  /-- Host read of a register, `GET`. -/
  | read (reg : Nat)
  /-- Host write of a buffer byte, one byte of a `LOAD`. -/
  | writeBuf (b : Buf) (i value : Nat)
  /-- Host read of a buffer byte. -/
  | readBuf (b : Buf) (i : Nat)
  /-- `WAIT`: "host reads STATUS until BUSY = 0" (log 24). -/
  | wait
  /-- No outside event before the executor's next step (log 1). -/
  | pass
  /-- Bytes reach the channel's receive side (10_state.md R41 (b), (c)). -/
  | arrive (bytes : List Byte)
  /-- Reset of the block (70_reset_and_hazards.md R230). -/
  | reset
  deriving DecidableEq, Repr

/-- The history of a transaction (42_transaction_executor.md R169). -/
inductive Event where
  /-- `Build(k, frame)`. -/
  | build (k : Nat) (frame : List Byte)
  /-- `Flush(ok | fail)`. -/
  | flush (ok : Bool)
  /-- `Tx(frame, ok | fail)`. -/
  | tx (frame : List Byte) (ok : Bool)
  /-- `Rx(ok(r) | fail)`: none is fail. -/
  | rx (r : Option (List Byte))
  /-- `Check(k, accepted | cause)`: `Cause.none` is accepted. -/
  | check (k : Nat) (cause : Cause)
  /-- `End(SUCCESS, k)`. -/
  | endSuccess (k : Nat)
  /-- `End(EXHAUSTED, N)`. -/
  | endExhausted (n : Nat)
  deriving DecidableEq, Repr

/-- The bytes of one buffer that something has written: pairs of index and byte, indices strictly rising (log 6). -/
abbrev Memory := List Host.Cell

/-- The state of the block, then of the channel's receive side, then of the inputs and the model's own bookkeeping. A register
that counts (a budget, a length) or whose width is a parameter of 00_scope.md R5 is a number; the invariant `State.Inv` bounds
each by its width or capacity. -/
@[ext]
structure State where
  /-- The block's parameters, which no step changes (00_scope.md R5; log 22). -/
  params : Params
  /-- `STATUS.BUSY` (10_state.md R21). -/
  busy : Bool
  /-- `STATUS.XSTATE` (10_state.md R22). -/
  xstate : XState
  /-- `STATUS.VOK` (10_state.md R21). -/
  vok : Bool
  /-- `STATUS.DVALID` (10_state.md R21). -/
  dvalid : Bool
  /-- `STATUS.ERR` (10_state.md R21). -/
  err : ErrCode
  /-- `PHASE` (10_state.md R23). -/
  phase : Phase
  /-- `CFG_BUDGET`, of `P_BUDGET_W` bits (10_state.md R25). -/
  cfgBudget : Nat
  /-- `CFG_WIDE` (10_state.md R26). -/
  cfgWide : Profile
  /-- `SLAVE` (10_state.md R27). -/
  slave : Byte
  /-- `FC` (10_state.md R28). -/
  fc : Byte
  /-- `RADDR` (10_state.md R29). -/
  raddr : Half
  /-- `QTY` (10_state.md R31). -/
  qty : Half
  /-- `DESC`: bit 0 `ENC`, bit 1 `SGN` (10_state.md R30). -/
  desc : BitVec 2
  /-- `ATTEMPTS`, of `P_BUDGET_W` bits: "It never exceeds `x[CFG_BUDGET]`" (10_state.md R32). -/
  attempts : Nat
  /-- `CAUSE` (10_state.md R33). -/
  cause : Cause
  /-- `EXCODE` (10_state.md R33). -/
  excode : Byte
  /-- `CRCREG` (10_state.md R34). -/
  crcreg : Half
  /-- `TXLEN`, 0 to `P_TX_MAX` (10_state.md R35). -/
  txlen : Nat
  /-- `RXLEN`, 0 to `P_RX_MAX` (10_state.md R35). -/
  rxlen : Nat
  /-- `PLEN`, 0 to `P_PAY_MAX` (10_state.md R35). -/
  plen : Nat
  /-- `HLEN`, 0 to `P_H_MAX` (10_state.md R35). -/
  hlen : Nat
  /-- `DVAL`, of `8 x P_VAL_BYTES` bits: the "fixed-width image" of the decoded integer (10_state.md R36). -/
  dval : Nat
  /-- `WBUF` (10_state.md R37). -/
  wbuf : Memory
  /-- `TXBUF` (10_state.md R37). -/
  txbuf : Memory
  /-- `RXBUF` (10_state.md R37). -/
  rxbuf : Memory
  /-- `PBUF` (10_state.md R37). -/
  pbuf : Memory
  /-- `HBUF` (10_state.md R37). -/
  hbuf : Memory
  /-- The channel's: bytes waiting on its receive side (10_state.md R41, 20_memory.md R63; log 5). -/
  line : List Byte
  /-- The model's: the channel's answers to come, one per call (20_memory.md R66; log 3). -/
  chan : List ChanDraw
  /-- The model's: the outside events to come, oldest first (log 1). -/
  inbox : List Input
  /-- The model's: what the host's latest read returned (log 11). -/
  rdata : Nat
  /-- The model's: the history, oldest first (42_transaction_executor.md R169; log 12). -/
  events : List Event
  /-- The model's: how many answers were drawn from `Config.chanDraw` (log 3). -/
  chanDraws : Nat
  /-- The model's: how many values were drawn from `Config.freeRead` (log 8). -/
  readDraws : Nat
  /-- The model's: how many resets there were, the index of the free buffer contents (log 6). -/
  resets : Nat
  deriving DecidableEq, Repr

/-- Why a step stops with a fault. -/
inductive Fault where
  /-- Raised by the BUILD step alone, when the operand registers hold operands `encode_request` refuses: the spec gives that
  step no frame ("It raises nothing", "no BUILD step can be refused", 42_transaction_executor.md R151, R153), and no
  reachable state has it. SAFE: the model stops where the spec gives no effect (log 13). -/
  | illegalBuild
  deriving DecidableEq, Repr

/-- Why an instruction has no meaning. -/
inductive Refusal where
  /-- Raised by an arm of `exec` whose instruction has no meaning yet. SAFE: the model stops. -/
  | notModelled (mnemonic : String)
  deriving DecidableEq, Repr

/-- The block right after reset (10_state.md R43), with an empty channel and no input pending (log 20). -/
def State.reset : State where
  params := .spec
  busy := false
  xstate := .idle
  vok := false
  dvalid := false
  err := .ok
  phase := .build
  cfgBudget := 0
  cfgWide := 0x169#9
  slave := 0x00#8
  fc := 0x00#8
  raddr := 0x0000#16
  qty := 0x0000#16
  desc := 0#2
  attempts := 0
  cause := .none
  excode := 0x00#8
  crcreg := 0xFFFF#16
  txlen := 0
  rxlen := 0
  plen := 0
  hlen := 0
  dval := 0
  wbuf := []
  txbuf := []
  rxbuf := []
  pbuf := []
  hbuf := []
  line := []
  chan := []
  inbox := []
  rdata := 0
  events := []
  chanDraws := 0
  readDraws := 0
  resets := 0

end Sys2Proof.Machine
end

