-- ==== Sys2Proof/Machine/Operands.lean ====
section
/-! DEFINITION. The operand forms: what a response yields (41_frame_codec.md R138), what a payload is read as (43_register_decoder.md R180 to R189), and the register numbers and widths of the host bus (10_state.md R20). -/

namespace Sys2Proof.Machine

/-- `decode_response(raw)`: without the leading 3 bytes and the trailing 2, nothing checked (41_frame_codec.md R138). -/
def stripResponse (raw : List Byte) : List Byte := dropLastN 2 (raw.drop 3)

/-- `be(s)`: `be([]) = 0`, `be(s ++ [b]) = 256 * be(s) + b` (00_scope.md R9). -/
def be (s : List Byte) : Nat := s.foldl (fun acc b => 256 * acc + b.toNat) 0

/-- `sbe(p)`: `be(p)`, less `256^n` when bit 7 of byte 0 is 1 (43_register_decoder.md R185). -/
def sbe (p : List Byte) : Int :=
  if (p.headD 0x00#8).getLsbD 7 then (be p : Int) - 256 ^ p.length else be p

/-- `digit(d)` in ASCII: '0' = 0x30 to '9' = 0x39, 'A' = 0x41 to 'F' = 0x46 (43_register_decoder.md R184). -/
def hexDigit (d : BitVec 4) : Byte :=
  if d.toNat < 10 then 0x30#8 + d.setWidth 8 else 0x37#8 + d.setWidth 8

/-- `hi(b)` then `lo(b)` (43_register_decoder.md R184). -/
def hexByte (b : Byte) : List Byte := [hexDigit (b.extractLsb' 4 4), hexDigit (b.extractLsb' 0 4)]

/-- `hexstr(p)` in ASCII: "0x" and two upper-case digits per byte (43_register_decoder.md R184). -/
def hexString (p : List Byte) : List Byte := 0x30#8 :: 0x78#8 :: p.flatMap hexByte

/-- What `decode` returns: "`Missing` (the sentinel), `Hex(str)` ..., or `Int(v)` with `v` a mathematical integer"
(43_register_decoder.md R180). -/
inductive DecodedValue where
  | missing
  | hex (str : List Byte)
  | int (v : Int)
  deriving DecidableEq, Repr

/-- `decode(p, enc, sgn)`, with `decimal` for `enc = decimal` and `signed` for `sgn = signed`: "The emptiness test comes
first, before the mode is looked at" (43_register_decoder.md R180, R181). -/
def decodeValue (p : List Byte) (decimal signed : Bool) : DecodedValue :=
  if p.length = 0 then .missing
  else if !decimal then .hex (hexString p)
  else if !signed then .int (be p)
  else .int (sbe p)

/-- The image of an integer in `DVAL`, `8 x P_VAL_BYTES` bits wide: zero-extended where it is not negative, two's complement
where it is (10_state.md R36, 43_register_decoder.md R187). -/
def dvalImage (c : Params) (v : Int) : Nat := (BitVec.ofInt (8 * c.valBytes) v).toNat

/-- The registers of the host bus by number (10_state.md R20); no other number is listed. -/
def regOfNumber (n : Nat) : Option Reg :=
  match n with
  | 0x00 => some .cmd
  | 0x01 => some .status
  | 0x02 => some .cfgBudget
  | 0x03 => some .cfgWide
  | 0x04 => some .slave
  | 0x05 => some .fc
  | 0x06 => some .raddr
  | 0x07 => some .qty
  | 0x08 => some .desc
  | 0x09 => some .attempts
  | 0x0A => some .cause
  | 0x0B => some .excode
  | 0x0C => some .crcreg
  | 0x0D => some .txlen
  | 0x0E => some .rxlen
  | 0x0F => some .plen
  | 0x10 => some .hlen
  | 0x11 => some .dval
  | _ => none

/-- How many bits hold every number up to `n`. -/
def bitsFor (n : Nat) : Nat := Nat.log2 n + 1

/-- The width in bits of a register (10_state.md R20); a register whose size is a parameter is as wide as its greatest value
needs, which is what R20 gives at the spec's values (log 22). -/
def regWidth (c : Params) : Reg → Nat
  | .cmd => 8
  | .status => 8
  | .cfgBudget => c.budgetW
  | .cfgWide => 9
  | .slave => 8
  | .fc => 8
  | .raddr => 16
  | .qty => 16
  | .desc => 2
  | .attempts => c.budgetW
  | .cause => 3
  | .excode => 8
  | .crcreg => 16
  | .txlen => bitsFor c.txMax
  | .rxlen => bitsFor c.rxMax
  | .plen => bitsFor c.payMax
  | .hlen => bitsFor c.hexMax
  | .dval => 8 * c.valBytes

/-- The number of a buffer, for the free values. -/
def bufNumber : Buf → Nat
  | .wbuf => 0
  | .txbuf => 1
  | .rxbuf => 2
  | .pbuf => 3
  | .hbuf => 4

/-- The capacity of a buffer in bytes (10_state.md R20, R37). -/
def bufCapacity (c : Params) : Buf → Nat
  | .wbuf => c.wMax
  | .txbuf => c.txMax
  | .rxbuf => c.rxMax
  | .pbuf => c.payMax
  | .hbuf => c.hexMax

end Sys2Proof.Machine
end

