-- ==== Sys2Proof/Machine/Flags.lean ====
section
/-! DEFINITION. The status word and everything that is computed to set a flag or a cause: the refusal checks of encode_request, the predicates on a response, the codes. -/

namespace Sys2Proof.Machine

/-- The 2-bit code of `XSTATE` (10_state.md R22). -/
def xstateCode : XState → BitVec 2
  | .idle => 0#2
  | .attempt => 1#2
  | .success => 2#2
  | .exhausted => 3#2

/-- The 3-bit code of `CAUSE` (60_exceptions.md R201). -/
def causeCode : Cause → BitVec 3
  | .none => 0#3
  | .transport => 1#3
  | .empty => 2#3
  | .short => 3#3
  | .overflow => 4#3
  | .exception => 5#3
  | .crc => 6#3

/-- The 3-bit code of `ERR` (60_exceptions.md R208). -/
def errCode : ErrCode → BitVec 3
  | .ok => 0#3
  | .illegalCmd => 1#3
  | .illegalFc => 2#3
  | .badQty => 3#3
  | .badLen => 4#3

/-- `STATUS` as the host reads it: bit 0 `BUSY`, 2:1 `XSTATE`, 3 `VOK`, 4 `DVALID`, 7:5 `ERR` (10_state.md R21). -/
def statusWord (busy : Bool) (x : XState) (vok dvalid : Bool) (e : ErrCode) : Byte :=
  errCode e ++ BitVec.ofBool dvalid ++ BitVec.ofBool vok ++ xstateCode x ++ BitVec.ofBool busy

/-- `check(fc, qty, slave, wide_addr, wide_en)`: the refusal it raises, if any, in the rule's order
(41_frame_codec.md R137). -/
def checkOperands (fc : Byte) (qty : Half) (slave : Byte) (p : Profile) : Option ErrCode :=
  if !(isReadFc fc || isWriteFc fc) then some .illegalFc
  else if isWriteFc fc && 255 < qty.toNat then some .badQty
  else if isReadFc fc && !isWide slave fc p && 255 < qty.toNat then some .badQty
  else none

/-- `well_formed(raw)` (41_frame_codec.md R139). -/
def wellFormed (raw : List Byte) : Bool := 5 ≤ raw.length && verify raw

/-- `is_exception(raw, fc)`: byte 1 is `fc` with bit 7 set (41_frame_codec.md R140). -/
def isException (raw : List Byte) (fc : Byte) : Bool := raw[1]? == some (fc ||| 0x80#8)

/-- `accepted(raw, fc)` (41_frame_codec.md R141). -/
def accepted (raw : List Byte) (fc : Byte) : Bool := 5 ≤ raw.length && !isException raw fc && verify raw

/-- The tests CHECK makes of a response that is no exception response, in the rule's order: EMPTY, SHORT, CRC; none when it
passes (42_transaction_executor.md R157). -/
def responseCause (raw : List Byte) : Option Cause :=
  if raw.length = 0 then some .empty
  else if raw.length < 5 then some .short
  else if !verify raw then some .crc
  else none

end Sys2Proof.Machine
end

