-- ==== Sys2Proof/Machine/Ops.lean ====
section
/-! DEFINITION. The named operations over buffers and registers: MemRead and MemWrite, the accessors of the packed registers, refusing a command, failing an attempt (the block's exception entry) and the retry decision (its return), succeeding. -/

namespace Sys2Proof.Machine

/-! ## A buffer's memory -/

/-- The byte written at index `i`, if any. -/
def Memory.lookup : Memory → Nat → Option Byte
  | [], _ => none
  | (a, b) :: rest, i => if a = i then some b else Memory.lookup rest i

/-- One byte written, the indices kept rising. -/
def Memory.insert : Memory → Nat → Byte → Memory
  | [], i, v => [(i, v)]
  | (a, b) :: rest, i, v =>
    if i < a then (i, v) :: (a, b) :: rest
    else if i = a then (i, v) :: rest
    else (a, b) :: Memory.insert rest i v

/-- `MemWrite(BUF+i, n, s)`: the bytes of `s` at `i`, `i+1`, ... and nowhere else (00_scope.md R8). -/
def Memory.store : Memory → Nat → List Byte → Memory
  | m, _, [] => m
  | m, i, b :: rest => Memory.store (Memory.insert m i b) (i + 1) rest

/-- The canonical form: indices strictly rising. An unlisted byte has no value, so no entry can repeat one (log 6). -/
abbrev Memory.wf (m : Memory) : Prop := (m.map Prod.fst).Pairwise (· < ·)

/-- No entry lies beyond the capacity (10_state.md R37). -/
abbrev Memory.within (cap : Nat) (m : Memory) : Prop := ∀ c ∈ m, c.1 < cap

/-- The memory of a buffer. -/
def State.buf (s : State) : Buf → Memory
  | .wbuf => s.wbuf
  | .txbuf => s.txbuf
  | .rxbuf => s.rxbuf
  | .pbuf => s.pbuf
  | .hbuf => s.hbuf

/-- `BUF[i]`: the byte last written there, or the free contents since the latest reset (00_scope.md R8, 10_state.md R43;
log 6). -/
def State.byteAt (s : State) (b : Buf) (i : Nat) : Byte :=
  match (s.buf b).lookup i with
  | some v => v
  | none => Config.bufferByte s.resets (bufNumber b) i

/-- `MemRead(BUF+0, n)` (00_scope.md R8). -/
def State.readBytes (s : State) (b : Buf) (n : Nat) : List Byte := (List.range n).map (s.byteAt b)

/-! ## The registers -/

/-- `x[STATUS]` (10_state.md R21). -/
def State.status (s : State) : Byte := statusWord s.busy s.xstate s.vok s.dvalid s.err

/-- `x[DESC].ENC` = 1: decimal (10_state.md R30). -/
def State.decimal (s : State) : Bool := s.desc.getLsbD 0

/-- `x[DESC].SGN` = 1: signed (10_state.md R30). -/
def State.signed (s : State) : Bool := s.desc.getLsbD 1

/-- `x[CRCREG].LO`, the byte that goes on the wire first (10_state.md R34). -/
def State.crcLo (s : State) : Byte := s.crcreg.extractLsb' 0 8

/-- `x[CRCREG].HI` (10_state.md R34). -/
def State.crcHi (s : State) : Byte := s.crcreg.extractLsb' 8 8

/-- `MemRead(RXBUF+0, x[RXLEN])`, the operand of CRC16, VERIFY, DECRSP and CHECK. -/
def State.response (s : State) : List Byte := s.readBytes .rxbuf s.rxlen

/-- `MemRead(PBUF+0, x[PLEN])`, the operand of DECODE (43_register_decoder.md R187). -/
def State.payload (s : State) : List Byte := s.readBytes .pbuf s.plen

/-- `MemRead(TXBUF+0, x[TXLEN])`, the frame WRITE sends (42_transaction_executor.md R155). -/
def State.frame (s : State) : List Byte := s.readBytes .txbuf s.txlen

/-- The arguments of `encode_request`: the operand registers and `MemRead(WBUF+0, min(x[QTY],255))`
(41_frame_codec.md R130, R142). -/
def State.operands (s : State) : RequestOperands where
  slave := s.slave
  fc := s.fc
  raddr := s.raddr
  qty := s.qty
  payload := s.readBytes .wbuf (min s.qty.toNat 255)
  profile := s.cfgWide

/-- The refusal `check` raises on the operand registers, if any (41_frame_codec.md R137). -/
def State.operandError (s : State) : Option ErrCode := checkOperands s.fc s.qty s.slave s.cfgWide

/-! ## Storing a result with its length -/

/-- `TXBUF` and `TXLEN`, "written as a whole" (41_frame_codec.md R146). -/
def State.storeTx (frame : List Byte) (s : State) : State :=
  { s with txbuf := Memory.store s.txbuf 0 frame, txlen := frame.length }

/-- `RXBUF` and `RXLEN` (42_transaction_executor.md R156). -/
def State.storeRx (r : List Byte) (s : State) : State :=
  { s with rxbuf := Memory.store s.rxbuf 0 r, rxlen := r.length }

/-- `PBUF` and `PLEN` (41_frame_codec.md R143, 42_transaction_executor.md R158). -/
def State.storePayload (p : List Byte) (s : State) : State :=
  { s with pbuf := Memory.store s.pbuf 0 p, plen := p.length }

/-- `HBUF` and `HLEN` (43_register_decoder.md R187). -/
def State.storeHex (h : List Byte) (s : State) : State :=
  { s with hbuf := Memory.store s.hbuf 0 h, hlen := h.length }

/-! ## Refusing, and the end of an attempt -/

/-- `raise Refuse(c)`: "sets `ERR <- c` and changes nothing else" (60_exceptions.md R208). -/
def State.refuse (c : ErrCode) (s : State) : State := { s with err := c }

/-- An event added to the history (42_transaction_executor.md R169). -/
def State.log (e : Event) (s : State) : State := { s with events := s.events ++ [e] }

/-- A transaction that ends in EXHAUSTED (42_transaction_executor.md R152, R161, R162). -/
def State.exhaust (s : State) : State :=
  { s with plen := 0, xstate := .exhausted, busy := false, events := s.events ++ [Event.endExhausted s.cfgBudget] }

/-- The retry decision, the block's return from a failed attempt: BUILD if attempts remain, else EXHAUSTED
(42_transaction_executor.md R161, 60_exceptions.md R213). -/
def State.retry (s : State) : State :=
  if s.attempts < s.cfgBudget then { s with phase := .build } else s.exhaust

/-- `raise AttemptFail(c)`, the block's exception entry: "It writes `CAUSE` ..., and control goes to the retry decision"
(42_transaction_executor.md R159, 60_exceptions.md R212). -/
def State.attemptFail (c : Cause) (s : State) : State :=
  ({ s with cause := c, events := s.events ++ [Event.check s.attempts c] }).retry

/-- Success: the stripped payload in `PBUF`, `XSTATE` SUCCESS, `BUSY` 0 (42_transaction_executor.md R158). -/
def State.succeed (raw : List Byte) (s : State) : State :=
  { s.storePayload (stripResponse raw) with
    xstate := .success
    busy := false
    events := s.events ++ [Event.check s.attempts .none, Event.endSuccess s.attempts] }

/-! ## When an instruction acts -/

/-- A request frame may be put in `TXBUF` by "one ENCODE command or one BUILD step and by nothing else"
(41_frame_codec.md R146): outside a transaction, or in its BUILD phase (log 14). -/
def State.mayBuild (s : State) : Bool := !s.busy || s.phase == .build

/-- CHECK is "Enabled when `XSTATE = ATTEMPT` and `PHASE = CHECK`" (42_transaction_executor.md R157; log 14). -/
def State.checking (s : State) : Bool := s.busy && s.phase == .check

end Sys2Proof.Machine
end

