-- ==== Sys2Proof/Machine/CrcEngine.lean ====
section
/-! DEFINITION. The CRC Engine's two host commands: CRC16, VERIFY (40_crc_engine.md R125, R126). -/

namespace Sys2Proof.Machine

/-- CRC16 (40_crc_engine.md R125): `CRCREG` and `ERR`; ignored while `BUSY`. -/
def execCrc16 (s : State) : Host.Outcome State Fault Refusal :=
  if s.busy then .next s else .next { s with crcreg := crc16 s.response, err := .ok }

/-- VERIFY (40_crc_engine.md R126): `VOK` and `ERR`; ignored while `BUSY`. -/
def execVerify (s : State) : Host.Outcome State Fault Refusal :=
  if s.busy then .next s else .next { s with vok := verify s.response, err := .ok }

end Sys2Proof.Machine
end

