-- ==== Sys2Proof/Machine/FrameCodec.lean ====
section
/-! DEFINITION. The Frame Codec: `encode_request`, the six request rows, ENCODE and DECRSP (41_frame_codec.md R130 to R146). -/

namespace Sys2Proof.Machine

/-- `encode_request` (41_frame_codec.md R130), its refusal by name or the frame: header, body by function code, CRC. -/
def encodeRequest (o : RequestOperands) : Except ErrCode (List Byte) :=
  match checkOperands o.fc o.qty o.slave o.profile with
  | some e => .error e
  | none =>
    let head := [o.slave, o.fc] ++ be2 o.raddr
    let body :=
      if isReadFc o.fc then
        if isWide o.slave o.fc o.profile then be2 o.qty else [o.qty.setWidth 8]
      else if o.fc = 0x06#8 then o.payload.take o.qty.toNat
      else [o.qty.setWidth 8] ++ o.payload.take o.qty.toNat
    .ok (sealFrame (head ++ body))

/-- A request row's frame put in `TXBUF`, `TXLEN` by ENCODE or BUILD (41_frame_codec.md R146; log 14). -/
def buildFrame (frame : List Byte) (s : State) : Host.Outcome State Fault Refusal :=
  if s.mayBuild then .next (s.storeTx frame) else .next s

/-- RDH.N: `[SLAVE, 0x03, RADDR[15:8], RADDR[7:0], QTY[7:0]]` and the CRC (41_frame_codec.md R132). -/
def execRdhN (slave : Byte) (raddr : Half) (qty : Byte) (s : State) : Host.Outcome State Fault Refusal :=
  buildFrame (sealFrame ([slave, 0x03#8] ++ be2 raddr ++ [qty])) s

/-- RDH.W: `[SLAVE, 0x03, RADDR[15:8], RADDR[7:0], QTY[15:8], QTY[7:0]]` and the CRC (41_frame_codec.md R132). -/
def execRdhW (slave : Byte) (raddr qty : Half) (s : State) : Host.Outcome State Fault Refusal :=
  buildFrame (sealFrame ([slave, 0x03#8] ++ be2 raddr ++ be2 qty)) s

/-- RDI.N: RDH.N "with 0x04 in place of 0x03" (41_frame_codec.md R133). -/
def execRdiN (slave : Byte) (raddr : Half) (qty : Byte) (s : State) : Host.Outcome State Fault Refusal :=
  buildFrame (sealFrame ([slave, 0x04#8] ++ be2 raddr ++ [qty])) s

/-- RDI.W: RDH.W "with 0x04 in place of 0x03" (41_frame_codec.md R133). -/
def execRdiW (slave : Byte) (raddr qty : Half) (s : State) : Host.Outcome State Fault Refusal :=
  buildFrame (sealFrame ([slave, 0x04#8] ++ be2 raddr ++ be2 qty)) s

/-- WRS: header, the payload, the CRC; "length field omitted" (41_frame_codec.md R136). -/
def execWrs (slave : Byte) (raddr : Half) (payload : List Byte) (s : State) : Host.Outcome State Fault Refusal :=
  buildFrame (sealFrame ([slave, 0x06#8] ++ be2 raddr ++ payload)) s

/-- WRM: header, the 1-byte quantity, the payload, the CRC (41_frame_codec.md R135). -/
def execWrm (slave : Byte) (raddr : Half) (payload : List Byte) (s : State) : Host.Outcome State Fault Refusal :=
  buildFrame (sealFrame ([slave, 0x10#8] ++ be2 raddr ++ [BitVec.ofNat 8 payload.length] ++ payload)) s

/-- ENCODE (41_frame_codec.md R142): the frame of the operand registers, or the refusal; ignored while `BUSY`. -/
def execEncode (s : State) : Host.Outcome State Fault Refusal :=
  if s.busy then .next s
  else
    match encodeRequest s.operands with
    | .error e => .next (s.refuse e)
    | .ok frame => .next { s.storeTx frame with err := .ok }

/-- DECRSP (41_frame_codec.md R143): `PBUF`, `PLEN`, `ERR`; it checks nothing; ignored while `BUSY`. -/
def execDecrsp (s : State) : Host.Outcome State Fault Refusal :=
  if s.busy then .next s else .next { s.storePayload (stripResponse s.response) with err := .ok }

end Sys2Proof.Machine
end

