-- ==== Sys2Proof/Machine/RegisterDecoder.lean ====
section
/-! DEFINITION. The Register Decoder: the command DECODE and its three modes (43_register_decoder.md R180 to R192). -/

namespace Sys2Proof.Machine

/-- The result of `decode` put in `DVAL`, `HBUF`, `HLEN`, `DVALID`, with `ERR <- 0` (43_register_decoder.md R187). -/
def State.deliver (v : DecodedValue) (s : State) : State :=
  match v with
  | .missing => { s with dvalid := false, dval := 0, hlen := 0, err := .ok }
  | .hex str => { s.storeHex str with dval := 0, dvalid := true, err := .ok }
  | .int n => { s with dval := dvalImage s.params n, hlen := 0, dvalid := true, err := .ok }

/-- DECODE under a mode: a decimal payload longer than `P_VAL_BYTES` is refused with BAD_LEN, everything else is decoded
(43_register_decoder.md R187, R191); ignored while `BUSY`. -/
def decodeUnder (decimal signed : Bool) (s : State) : Host.Outcome State Fault Refusal :=
  if s.busy then .next s
  else if decimal && s.params.valBytes < s.plen then .next (s.refuse .badLen)
  else .next (s.deliver (decodeValue s.payload decimal signed))

/-- DEC.HEX (43_register_decoder.md R184): `SGN` is ignored (30_encoding.md R107). -/
def execDecHex (_sgn : Bool) (s : State) : Host.Outcome State Fault Refusal := decodeUnder false false s

/-- DEC.U (43_register_decoder.md R183). -/
def execDecU (s : State) : Host.Outcome State Fault Refusal := decodeUnder true false s

/-- DEC.S (43_register_decoder.md R185). -/
def execDecS (s : State) : Host.Outcome State Fault Refusal := decodeUnder true true s

/-- DECODE (43_register_decoder.md R187): the mode is the descriptor's alone (R182). -/
def execDecode (s : State) : Host.Outcome State Fault Refusal := decodeUnder s.decimal s.signed s

end Sys2Proof.Machine
end

