-- ==== Sys2Proof/Machine/Transaction.lean ====
section
/-! DEFINITION. The Transaction Executor's command XACT, the response rows the CHECK step runs, and the transaction as a function (42_transaction_executor.md R151 to R170). -/

namespace Sys2Proof.Machine

/-- XACT (42_transaction_executor.md R151, R152): the operands are checked, the bookkeeping registers cleared, and the
transaction starts, or ends at once when the budget is zero; ignored while `BUSY`. -/
def execXact (s : State) : Host.Outcome State Fault Refusal :=
  if s.busy then .next s
  else
    match s.operandError with
    | some e => .next (s.refuse e)
    | none =>
      let t := { s with err := .ok, attempts := 0, cause := .none, excode := 0#8, rxlen := 0 }
      if s.cfgBudget = 0 then .next t.exhaust
      else .next { t with xstate := .attempt, phase := .build, busy := true }

/-- CHECK of an exception response: `EXCODE <- raw[2]`, cause EXCEPTION; the CRC is not looked at
(42_transaction_executor.md R157, 60_exceptions.md R206, R211). -/
def checkException (code : Byte) (s : State) : Host.Outcome State Fault Refusal :=
  if s.checking then .next (({ s with excode := code }).attemptFail .exception) else .next s

/-- EXC.03 (41_frame_codec.md R140). -/
def execExc03 (_addr code : Byte) (_tail : List Byte) (s : State) : Host.Outcome State Fault Refusal :=
  checkException code s

/-- EXC.04 (41_frame_codec.md R140). -/
def execExc04 (_addr code : Byte) (_tail : List Byte) (s : State) : Host.Outcome State Fault Refusal :=
  checkException code s

/-- EXC.06 (41_frame_codec.md R140). -/
def execExc06 (_addr code : Byte) (_tail : List Byte) (s : State) : Host.Outcome State Fault Refusal :=
  checkException code s

/-- EXC.10 (41_frame_codec.md R140). -/
def execExc10 (_addr code : Byte) (_tail : List Byte) (s : State) : Host.Outcome State Fault Refusal :=
  checkException code s

/-- RSP: the tests of CHECK for a response that is no exception response, then success
(42_transaction_executor.md R157, R158, 41_frame_codec.md R141). -/
def execRsp (raw : List Byte) (s : State) : Host.Outcome State Fault Refusal :=
  if s.checking then
    match responseCause raw with
    | some c => .next (s.attemptFail c)
    | none => .next (s.succeed raw)
  else .next s

/-! ## The transaction as a function (42_transaction_executor.md R170) -/

/-- What the channel answers in one attempt: the flush fails; the flush is ok and the write fails; both are ok and the read
fails; all are ok and the read returns `r`. -/
inductive ChanAnswer where
  | flushFail
  | writeFail
  | readFail
  | rx (r : List Byte)
  deriving DecidableEq, Repr

/-- What one attempt comes to. -/
inductive AttemptResult where
  | ok (payload : List Byte)
  | fail (c : Cause)
  deriving DecidableEq, Repr

/-- What a transaction comes to: `Success(k, p)` or `Exhausted(N, cause)`. -/
inductive TransactResult where
  | success (k : Nat) (payload : List Byte)
  | exhausted (n : Nat) (cause : Cause)
  deriving DecidableEq, Repr

/-- `outcome(fc, answer)`, for a block with parameters `c`. -/
def outcome (c : Params) (fc : Byte) : ChanAnswer → AttemptResult
  | .flushFail => .fail .transport
  | .writeFail => .fail .transport
  | .readFail => .fail .transport
  | .rx r =>
    if c.rxMax < r.length then .fail .overflow
    else if r.length = 0 then .fail .empty
    else if r.length < 5 then .fail .short
    else if isException r fc then .fail .exception
    else if !verify r then .fail .crc
    else .ok (stripResponse r)

/-- `transact` from the attempt after the `k`-th on, the last of which failed with `last`; one answer for each attempt that
remains. -/
def transactFrom (c : Params) (fc : Byte) (k : Nat) (last : Cause) : List ChanAnswer → TransactResult
  | [] => .exhausted k last
  | a :: rest =>
    match outcome c fc a with
    | .ok p => .success (k + 1) p
    | .fail cause => transactFrom c fc (k + 1) cause rest

/-- `transact(fc, N, ans)`, with `ans` the `N` answers: "cause of attempt N, or 0 when N = 0". -/
def transact (c : Params) (fc : Byte) (ans : List ChanAnswer) : TransactResult := transactFrom c fc 0 .none ans

end Sys2Proof.Machine
end

