-- ==== Sys2Proof/Machine/Dispatch.lean ====
section
/-! DEFINITION. One arm per instruction. -/

namespace Sys2Proof.Machine

/-- The meaning of an instruction. -/
def exec (i : Instr) (s : State) : Host.Outcome State Fault Refusal :=
  match i with
  | .crc16 => Sys2Proof.Machine.execCrc16 s
  | .verify => Sys2Proof.Machine.execVerify s
  | .encode => Sys2Proof.Machine.execEncode s
  | .decrsp => Sys2Proof.Machine.execDecrsp s
  | .xact => Sys2Proof.Machine.execXact s
  | .decode => Sys2Proof.Machine.execDecode s
  | .rdhN slave raddr qty => Sys2Proof.Machine.execRdhN slave raddr qty s
  | .rdhW slave raddr qty => Sys2Proof.Machine.execRdhW slave raddr qty s
  | .rdiN slave raddr qty => Sys2Proof.Machine.execRdiN slave raddr qty s
  | .rdiW slave raddr qty => Sys2Proof.Machine.execRdiW slave raddr qty s
  | .wrs slave raddr payload => Sys2Proof.Machine.execWrs slave raddr payload s
  | .wrm slave raddr payload => Sys2Proof.Machine.execWrm slave raddr payload s
  | .exc03 addr code tail => Sys2Proof.Machine.execExc03 addr code tail s
  | .exc04 addr code tail => Sys2Proof.Machine.execExc04 addr code tail s
  | .exc06 addr code tail => Sys2Proof.Machine.execExc06 addr code tail s
  | .exc10 addr code tail => Sys2Proof.Machine.execExc10 addr code tail s
  | .rsp raw => Sys2Proof.Machine.execRsp raw s
  | .decHex sgn => Sys2Proof.Machine.execDecHex sgn s
  | .decU => Sys2Proof.Machine.execDecU s
  | .decS => Sys2Proof.Machine.execDecS s

end Sys2Proof.Machine
end

