-- ==== Sys2Proof/Machine/Phases.lean ====
section
/-! DEFINITION. The five steps of an attempt (42_transaction_executor.md R153 to R157): BUILD runs the request row the operand registers select, CHECK the response row the received bytes are classed as. -/

namespace Sys2Proof.Machine

/-- The channel's answer to the next call: the next of the list, or a free value (20_memory.md R66; log 3). -/
def State.answer (s : State) : ChanDraw :=
  match s.chan with
  | a :: _ => a
  | [] => Config.chanDraw s.chanDraws

/-- The answer is used up: each call has a draw of its own, which no later call sees (20_memory.md R66; log 3). -/
def State.popAnswer (s : State) : State :=
  match s.chan with
  | _ :: rest => { s with chan := rest }
  | [] => { s with chanDraws := s.chanDraws + 1 }

/-- BUILD (42_transaction_executor.md R153): `ATTEMPTS + 1`, the request's frame, PHASE FLUSH. -/
def stepBuild (s : State) : Host.Outcome State Fault Refusal :=
  match selectRequest s.operands with
  | .error _ => .fault .illegalBuild
  | .ok i =>
    match exec i { s with attempts := s.attempts + 1 } with
    | .next t => .next (State.log (.build t.attempts t.frame) { t with phase := .flush })
    | .fault f => .fault f
    | .refused r => .refused r

/-- FLUSH (42_transaction_executor.md R154): the waiting bytes are discarded, or the attempt fails; a failed flush leaves them
(log 21). -/
def stepFlush (s : State) : Host.Outcome State Fault Refusal :=
  match s.answer with
  | .ok _ => .next (State.log (.flush true) { s.popAnswer with line := [], phase := .write })
  | .fail => .next (State.attemptFail .transport (State.log (.flush false) s.popAnswer))

/-- WRITE (42_transaction_executor.md R155): the whole frame in one call, or the attempt fails. -/
def stepWrite (s : State) : Host.Outcome State Fault Refusal :=
  match s.answer with
  | .ok _ => .next (State.log (.tx s.frame true) { s.popAnswer with phase := .read })
  | .fail => .next (State.attemptFail .transport (State.log (.tx s.frame false) s.popAnswer))

/-- READ (42_transaction_executor.md R156): all the bytes available, those waiting since the flush first; more than
`P_RX_MAX` fails the attempt; a failed read leaves the waiting bytes (log 21). -/
def stepRead (s : State) : Host.Outcome State Fault Refusal :=
  match s.answer with
  | .fail => .next (State.attemptFail .transport (State.log (.rx none) { s.popAnswer with rxlen := 0 }))
  | .ok arrived =>
    let r := s.line ++ arrived
    let t := State.log (.rx (some r)) { s.popAnswer with line := [] }
    if s.params.rxMax < r.length then .next (State.attemptFail .overflow (t.storeRx (r.take s.params.rxMax)))
    else .next { t.storeRx r with phase := .check }

/-- CHECK (42_transaction_executor.md R157): the row the response is classed as, run. -/
def stepCheck (s : State) : Host.Outcome State Fault Refusal := exec (classify s.fc s.response) s

/-- One step of the executor: "The executor has a step exactly when `x[STATUS].BUSY = 1`; otherwise it is idle"
(42_transaction_executor.md R150). -/
def stepExecutor (s : State) : Host.Outcome State Fault Refusal :=
  if s.busy then
    match s.phase with
    | .build => stepBuild s
    | .flush => stepFlush s
    | .write => stepWrite s
    | .read => stepRead s
    | .check => stepCheck s
  else .next s

end Sys2Proof.Machine
end

