-- ==== Sys2Proof/Machine/HostBus.lean ====
section
/-! DEFINITION. The host's accesses to registers and buffers, and reset (10_state.md R20 to R44, 70_reset_and_hazards.md R230 to R232). -/

namespace Sys2Proof.Machine

/-- A write to `CMD` while `BUSY = 0`: the command runs, or is refused with ILLEGAL_CMD (10_state.md R24,
30_encoding.md R105). -/
def hostCommand (c : Byte) (s : State) : Host.Outcome State Fault Refusal :=
  match decode .command [c] with
  | .ok i => exec i s
  | .error _ => .next (s.refuse .illegalCmd)

/-- Host write of a register: ignored while `BUSY`, truncated to the register's width, refused above the maximum of `RXLEN`
and `PLEN`, without effect on a read-only or unlisted register (10_state.md R35, R40, R44; log 8). -/
def hostWrite (reg value : Nat) (s : State) : Host.Outcome State Fault Refusal :=
  if s.busy then .next s
  else
    match regOfNumber reg with
    | none => .next s
    | some .cmd => hostCommand (BitVec.ofNat 8 value) s
    | some .cfgBudget => .next { s with cfgBudget := value % 2 ^ s.params.budgetW }
    | some .cfgWide => .next { s with cfgWide := BitVec.ofNat 9 value }
    | some .slave => .next { s with slave := BitVec.ofNat 8 value }
    | some .fc => .next { s with fc := BitVec.ofNat 8 value }
    | some .raddr => .next { s with raddr := BitVec.ofNat 16 value }
    | some .qty => .next { s with qty := BitVec.ofNat 16 value }
    | some .desc => .next { s with desc := BitVec.ofNat 2 value }
    | some .rxlen =>
      if s.params.rxMax < value then .next (s.refuse .badLen) else .next { s with rxlen := value }
    | some .plen =>
      if s.params.payMax < value then .next (s.refuse .badLen) else .next { s with plen := value }
    | some .status => .next s
    | some .attempts => .next s
    | some .cause => .next s
    | some .excode => .next s
    | some .crcreg => .next s
    | some .txlen => .next s
    | some .hlen => .next s
    | some .dval => .next s

/-- Whether the host may write a buffer (10_state.md R20). -/
def hostWritable : Buf → Bool
  | .wbuf => true
  | .txbuf => false
  | .rxbuf => true
  | .pbuf => true
  | .hbuf => false

/-- A byte put in a buffer. -/
def State.poke (b : Buf) (i : Nat) (v : Byte) (s : State) : State :=
  match b with
  | .wbuf => { s with wbuf := Memory.insert s.wbuf i v }
  | .txbuf => { s with txbuf := Memory.insert s.txbuf i v }
  | .rxbuf => { s with rxbuf := Memory.insert s.rxbuf i v }
  | .pbuf => { s with pbuf := Memory.insert s.pbuf i v }
  | .hbuf => { s with hbuf := Memory.insert s.hbuf i v }

/-- Host write of a buffer byte: ignored while `BUSY`, without effect on a read-only buffer or beyond the capacity
(10_state.md R37, R40, R44). -/
def hostWriteBuf (b : Buf) (i value : Nat) (s : State) : Host.Outcome State Fault Refusal :=
  if !s.busy && hostWritable b && i < bufCapacity s.params b then .next (s.poke b i (BitVec.ofNat 8 value)) else .next s

/-- A read returns `v`. -/
def State.answerRead (v : Nat) (s : State) : State := { s with rdata := v }

/-- A read returns an unspecified value of `w` bits (10_state.md R40, R44; log 8). -/
def State.drawRead (w : Nat) (s : State) : State :=
  { s with rdata := Config.freeRead s.readDraws % 2 ^ w, readDraws := s.readDraws + 1 }

/-- What a register holds, as a number; `CMD` reads 0 (10_state.md R20, R24). -/
def State.regValue (s : State) : Reg → Nat
  | .cmd => 0
  | .status => s.status.toNat
  | .cfgBudget => s.cfgBudget
  | .cfgWide => s.cfgWide.toNat
  | .slave => s.slave.toNat
  | .fc => s.fc.toNat
  | .raddr => s.raddr.toNat
  | .qty => s.qty.toNat
  | .desc => s.desc.toNat
  | .attempts => s.attempts
  | .cause => (causeCode s.cause).toNat
  | .excode => s.excode.toNat
  | .crcreg => s.crcreg.toNat
  | .txlen => s.txlen
  | .rxlen => s.rxlen
  | .plen => s.plen
  | .hlen => s.hlen
  | .dval => s.dval

/-- Host read of a register: while `BUSY` only `STATUS` is shown; an unlisted number returns an unspecified value, of the width
of `DVAL`, the widest register (10_state.md R40, R44; logs 8 and 9). -/
def hostRead (reg : Nat) (s : State) : Host.Outcome State Fault Refusal :=
  match regOfNumber reg with
  | none => .next (s.drawRead (8 * s.params.valBytes))
  | some r => if s.busy && r != .status then .next (s.drawRead (regWidth s.params r)) else .next (s.answerRead (s.regValue r))

/-- How many bytes of a buffer have a meaning: its length register, and all of `WBUF`, which has none
(10_state.md R35; log 7). -/
def State.validBytes (s : State) : Buf → Nat
  | .wbuf => s.params.wMax
  | .txbuf => s.txlen
  | .rxbuf => s.rxlen
  | .pbuf => s.plen
  | .hbuf => s.hlen

/-- Host read of a buffer byte: unspecified while `BUSY`, beyond the capacity, and at or beyond the length
(10_state.md R35, R40, R44; logs 7, 8 and 9). -/
def hostReadBuf (b : Buf) (i : Nat) (s : State) : Host.Outcome State Fault Refusal :=
  if !s.busy && i < bufCapacity s.params b && i < s.validBytes b then .next (s.answerRead (s.byteAt b i).toNat)
  else .next (s.drawRead 8)

/-- Reset of the block: every piece of its state at its reset value and fresh unspecified buffer contents; an attempt in
progress is dropped at whatever step it had reached (10_state.md R43, 70_reset_and_hazards.md R230, R232). The parameters, the
channel's waiting bytes, the draws of its calls to come and the inputs are not the block's and stay (log 17); every call made
before the reset has used up its own draw, so none of the dropped attempt's answers is seen again (20_memory.md R66; log 3). -/
def State.restart (s : State) : State :=
  { State.reset with
    params := s.params
    line := s.line
    chan := s.chan
    inbox := s.inbox
    rdata := s.rdata
    events := s.events
    chanDraws := s.chanDraws
    readDraws := s.readDraws
    resets := s.resets + 1 }

/-- The next outside event, if there is one, and else a step of the executor (log 1). `WAIT` stays at the head until
`BUSY = 0` (30_encoding.md R108; log 24). -/
def stepInput (s : State) : Host.Outcome State Fault Refusal :=
  match s.inbox with
  | [] => stepExecutor s
  | .pass :: rest => stepExecutor { s with inbox := rest }
  | .wait :: rest =>
    if s.busy then stepExecutor (s.answerRead (s.regValue .status))
    else .next (State.answerRead (s.regValue .status) { s with inbox := rest })
  | .write reg value :: rest => hostWrite reg value { s with inbox := rest }
  | .read reg :: rest => hostRead reg { s with inbox := rest }
  | .writeBuf b i value :: rest => hostWriteBuf b i value { s with inbox := rest }
  | .readBuf b i :: rest => hostReadBuf b i { s with inbox := rest }
  | .arrive bytes :: rest => .next { s with inbox := rest, line := s.line ++ bytes }
  | .reset :: rest => .next (State.restart { s with inbox := rest })

/-! ## Placing an instruction where the next step fetches it (log 2) -/

/-- A command: the host's write of its code to `CMD` is the next event, and no transaction is running. -/
def placeCommand (c : Nat) (s : State) : State :=
  { s with
    busy := false
    xstate := if s.xstate = .attempt then .idle else s.xstate
    inbox := .write 0x00 c :: s.inbox }

/-- A request: its operands in the operand registers and the executor in BUILD, with no host event before its step. -/
def placeRequest (slave fc : Byte) (raddr qty : Half) (payload : List Byte) (p : Profile) (s : State) : State :=
  { s with
    busy := true
    xstate := .attempt
    phase := .build
    slave := slave
    fc := fc
    raddr := raddr
    qty := qty
    wbuf := Memory.store s.wbuf 0 payload
    cfgWide := p
    inbox := .pass :: s.inbox }

/-- A response: its bytes in `RXBUF`, the requested code in `FC` and the executor in CHECK, with no host event before its
step. -/
def placeResponse (fc : Byte) (raw : List Byte) (s : State) : State :=
  { s.storeRx raw with
    busy := true
    xstate := .attempt
    phase := .check
    fc := fc
    inbox := .pass :: s.inbox }

/-- A decoder mode: its value in `DESC` and a DECODE as the next event. -/
def placeMode (d : BitVec 2) (s : State) : State := { placeCommand 0x06 s with desc := d }

/-- The instruction placed. -/
def placeInstr (i : Instr) (s : State) : State :=
  match i with
  | .crc16 => placeCommand 0x01 s
  | .verify => placeCommand 0x02 s
  | .encode => placeCommand 0x03 s
  | .decrsp => placeCommand 0x04 s
  | .xact => placeCommand 0x05 s
  | .decode => placeCommand 0x06 s
  | .rdhN slave raddr qty => placeRequest slave 0x03#8 raddr (qty.setWidth 16) [] 0x000#9 s
  | .rdhW slave raddr qty => placeRequest slave 0x03#8 raddr qty [] (0x100#9 ||| slave.setWidth 9) s
  | .rdiN slave raddr qty => placeRequest slave 0x04#8 raddr (qty.setWidth 16) [] 0x000#9 s
  | .rdiW slave raddr qty => placeRequest slave 0x04#8 raddr qty [] (0x100#9 ||| slave.setWidth 9) s
  | .wrs slave raddr payload =>
    placeRequest slave 0x06#8 raddr (BitVec.ofNat 16 payload.length) payload s.cfgWide s
  | .wrm slave raddr payload =>
    placeRequest slave 0x10#8 raddr (BitVec.ofNat 16 payload.length) payload s.cfgWide s
  | .exc03 addr code tail => placeResponse 0x03#8 (addr :: 0x83#8 :: code :: tail) s
  | .exc04 addr code tail => placeResponse 0x04#8 (addr :: 0x84#8 :: code :: tail) s
  | .exc06 addr code tail => placeResponse 0x06#8 (addr :: 0x86#8 :: code :: tail) s
  | .exc10 addr code tail => placeResponse 0x10#8 (addr :: 0x90#8 :: code :: tail) s
  | .rsp raw => placeResponse (if classify s.fc raw = .rsp raw then s.fc else 0x00#8) raw s
  | .decHex sgn => placeMode (if sgn then 2#2 else 0#2) s
  | .decU => placeMode 1#2 s
  | .decS => placeMode 3#2 s

/-- The word placed: as the instruction it decodes to, or as a command code where it decodes to none. -/
def placeWord (nbits w : Nat) (s : State) : State :=
  match decodeTableWord nbits w with
  | some i => placeInstr i s
  | none => placeCommand w s

end Sys2Proof.Machine
end

