-- ==== Sys2Proof/Machine/Step.lean ====
section
/-! DEFINITION. One step of the machine, and how the host of this package places an instruction. -/

namespace Sys2Proof.Machine

/-- One step: the next outside event, or one step of the executor. -/
def step (s : State) : Host.Outcome State Fault Refusal := stepInput s

/-- The state with the instruction of a table word placed where the next step runs it (logs 2 and 18). -/
def State.withFetchWord (s : State) (nbits w : Nat) : State := placeWord nbits w s

end Sys2Proof.Machine
end

