-- ==== Sys2Proof/Machine/HostProgram.lean ====
section
/-! DEFINITION. The host's assembler lines and pseudo-instructions as lists of outside events (30_encoding.md R108, R109). -/

namespace Sys2Proof.Machine

/-- The number of a register (10_state.md R20). -/
def regNumber : Reg → Nat
  | .cmd => 0x00
  | .status => 0x01
  | .cfgBudget => 0x02
  | .cfgWide => 0x03
  | .slave => 0x04
  | .fc => 0x05
  | .raddr => 0x06
  | .qty => 0x07
  | .desc => 0x08
  | .attempts => 0x09
  | .cause => 0x0A
  | .excode => 0x0B
  | .crcreg => 0x0C
  | .txlen => 0x0D
  | .rxlen => 0x0E
  | .plen => 0x0F
  | .hlen => 0x10
  | .dval => 0x11

/-- `SET <register>, <value>`. -/
def hostSet (r : Reg) (v : Nat) : Input := .write (regNumber r) v

/-- `GET <register>`. -/
def hostGet (r : Reg) : Input := .read (regNumber r)

/-- A command line: "host write of the command code to CMD". -/
def hostIssue (code : Nat) : Input := .write 0x00 code

/-- The buffer bytes of a `LOAD`, from index `i`. -/
def hostLoadBytes (b : Buf) : Nat → List Byte → List Input
  | _, [] => []
  | i, v :: rest => .writeBuf b i v.toNat :: hostLoadBytes b (i + 1) rest

/-- `LOAD <buffer>, <hex bytes>`: the bytes from index 0, "and of its length register where it has one". -/
def hostLoad (b : Buf) (bytes : List Byte) : List Input :=
  hostLoadBytes b 0 bytes ++
    match b with
    | .wbuf => []
    | .txbuf => [hostSet .txlen bytes.length]
    | .rxbuf => [hostSet .rxlen bytes.length]
    | .pbuf => [hostSet .plen bytes.length]
    | .hbuf => [hostSet .hlen bytes.length]

/-- `ACQ <mnemonic> slave, raddr, qty, enc, sgn`: "`SET SLAVE`; `SET FC`; `SET RADDR`; `SET QTY`; `SET DESC`; `XACT`;
`WAIT`; `DECODE`" (30_encoding.md R109). -/
def hostAcquire (fc slave : Byte) (raddr qty : Half) (desc : BitVec 2) : List Input :=
  [hostSet .slave slave.toNat, hostSet .fc fc.toNat, hostSet .raddr raddr.toNat, hostSet .qty qty.toNat,
    hostSet .desc desc.toNat, hostIssue 0x05, .wait, hostIssue 0x06]

/-- The tail of `APPENDCRC` after its CRC16, for a host that has read `CRCREG` and `RXLEN`: `LO`, `HI` at the end of the
response, and `RXLEN + 2` (30_encoding.md R109). -/
def hostAppendCrc (crcreg : Half) (rxlen : Nat) : List Input :=
  [.writeBuf .rxbuf rxlen (crcreg.extractLsb' 0 8).toNat,
    .writeBuf .rxbuf (rxlen + 1) (crcreg.extractLsb' 8 8).toNat,
    hostSet .rxlen (rxlen + 2)]

end Sys2Proof.Machine
end

