-- ==== Sys2Proof/Safety.lean ====
section
/-! DEFINITION. What a well-formed state and a safe run are. -/

namespace Sys2Proof.Machine

/-- What every state that a run from reset reaches has, and what the rules of the spec promise of the block's state. -/
structure State.Inv (s : State) : Prop where
  /-- "`XSTATE = 1` holds exactly when `BUSY = 1`" (10_state.md R22). -/
  attempt_iff_busy : s.xstate = .attempt ↔ s.busy = true
  /-- "The operands are checked once ...; since they cannot change while `BUSY = 1` ..., no BUILD step can be refused"
  (42_transaction_executor.md R151). -/
  operands_legal : s.busy = true → s.operandError = none
  /-- BUILD is entered with attempts remaining (42_transaction_executor.md R151, R161). -/
  attempts_remain : s.busy = true → s.phase = .build → s.attempts < s.cfgBudget
  /-- After BUILD the attempt is counted and within the budget (10_state.md R32). -/
  attempts_counted : s.busy = true → s.phase ≠ .build → 0 < s.attempts ∧ s.attempts ≤ s.cfgBudget
  /-- After BUILD the frame of the operand registers stands in `TXBUF`: "between a BUILD step and the WRITE step that sends the
  frame no rule changes them" (41_frame_codec.md R146). -/
  frame_built : s.busy = true → s.phase ≠ .build → encodeRequest s.operands = .ok s.frame
  /-- `TXLEN` is 0 to `P_TX_MAX` (10_state.md R35). -/
  txlen_le : s.txlen ≤ s.params.txMax
  /-- `RXLEN` is 0 to `P_RX_MAX` (10_state.md R35). -/
  rxlen_le : s.rxlen ≤ s.params.rxMax
  /-- `PLEN` is 0 to `P_PAY_MAX` (10_state.md R35). -/
  plen_le : s.plen ≤ s.params.payMax
  /-- `HLEN` is 0 to `P_H_MAX` (10_state.md R35). -/
  hlen_le : s.hlen ≤ s.params.hexMax
  /-- Every buffer keeps the canonical form (log 6). -/
  buf_wf : ∀ b, Memory.wf (s.buf b)
  /-- No buffer holds a byte beyond its capacity (10_state.md R37). -/
  buf_within : ∀ b, Memory.within (bufCapacity s.params b) (s.buf b)
  /-- "with `DVALID = 0`, `DVAL` is 0 and `HLEN` is 0" (43_register_decoder.md R189). -/
  sentinel : s.dvalid = false → s.dval = 0 ∧ s.hlen = 0
  /-- `DVAL` is 0 unless the latest DECODE was in decimal mode (10_state.md R36). -/
  hex_or_dval : s.hlen = 0 ∨ s.dval = 0
  /-- IDLE: "no transaction started since reset" (10_state.md R22), so its bookkeeping is at the reset values (R43). -/
  idle_fresh : s.xstate = .idle → s.attempts = 0 ∧ s.cause = .none ∧ s.excode = 0#8
  /-- In SUCCESS `ATTEMPTS` is "the number of the attempt that succeeded (1 to `N`)" (42_transaction_executor.md R158). -/
  success_counted : s.xstate = .success → 0 < s.attempts
  /-- The parameters stand in the relations of 00_scope.md R5. -/
  params_legal : s.params.Legal
  /-- `CFG_BUDGET` fits its `P_BUDGET_W` bits (10_state.md R25). -/
  budget_fits : s.cfgBudget < 2 ^ s.params.budgetW
  /-- `ATTEMPTS` fits as many: "it never wraps" (10_state.md R32). -/
  attempts_fit : s.attempts < 2 ^ s.params.budgetW
  /-- `DVAL` fits its `8 x P_VAL_BYTES` bits (10_state.md R36). -/
  dval_fits : s.dval < 2 ^ (8 * s.params.valBytes)

/-- A step that does not stop: the block "raises no fault to the host" (42_transaction_executor.md R164). -/
def State.Goes (s : State) : Prop := ∃ t, step s = .next t

/-- A safe run of `k` steps: no fault and no refusal. -/
def State.Safe (s : State) (k : Nat) : Prop := ∃ t, Sys2Proof.core.run k s = .next t

/-- Whether an event is a `ChanWrite` call. -/
def isTx : Event → Bool
  | .tx _ _ => true
  | _ => false

/-- What the channel will answer in an attempt that starts now, put together from the draws of its calls: one for the flush, one
for the write if the flush is ok, one for the read if the write is ok (20_memory.md R66, 42_transaction_executor.md R170). -/
def State.attemptAnswer (s : State) : ChanAnswer :=
  match s.answer with
  | .fail => .flushFail
  | .ok _ =>
    match s.popAnswer.answer with
    | .fail => .writeFail
    | .ok _ =>
      match s.popAnswer.popAnswer.answer with
      | .fail => .readFail
      | .ok r => .rx r

/-- The state with the draws of that attempt's calls used up, and no other (log 3). -/
def State.popAttempt (s : State) : State :=
  match s.answer with
  | .fail => s.popAnswer
  | .ok _ =>
    match s.popAnswer.answer with
    | .fail => s.popAnswer.popAnswer
    | .ok _ => s.popAnswer.popAnswer.popAnswer

/-- The answers the channel will give in the next `n` attempts (42_transaction_executor.md R170). -/
def State.upcoming (s : State) : Nat → List ChanAnswer
  | 0 => []
  | n + 1 => s.attemptAnswer :: s.popAttempt.upcoming n

end Sys2Proof.Machine
end

