-- ==== Sys2Proof/Certificates/Slice0/Obligations.lean ====
section
/-! DEFINITION. The statements for the provers, from the numbered rules of the spec. -/

namespace Sys2Proof.Machine

/-! ## Words the statements use -/

/-- A frame stands in `TXBUF`, its length in `TXLEN`, the other bytes of `TXBUF` are as before, and nothing else has changed. -/
def Built (s t : State) (frame : List Byte) : Prop :=
  t.frame = frame ∧ t.txlen = frame.length ∧
    (∀ j, frame.length ≤ j → t.byteAt .txbuf j = s.byteAt .txbuf j) ∧
    t = { s with txbuf := t.txbuf, txlen := t.txlen }

/-- The bytes `p` stand in `PBUF` with their number in `PLEN`, the other bytes of `PBUF` are as before. -/
def PayloadIs (s t : State) (p : List Byte) : Prop :=
  t.payload = p ∧ t.plen = p.length ∧ (∀ j, p.length ≤ j → t.byteAt .pbuf j = s.byteAt .pbuf j)

/-- The bytes `r` stand in `RXBUF` with their number in `RXLEN`, the other bytes of `RXBUF` are as before. -/
def ResponseIs (s t : State) (r : List Byte) : Prop :=
  t.response = r ∧ t.rxlen = r.length ∧ (∀ j, r.length ≤ j → t.byteAt .rxbuf j = s.byteAt .rxbuf j)

/-- The state a failed attempt leaves (42_transaction_executor.md R159, R161, R162): the cause, and then BUILD while attempts
remain, else EXHAUSTED with no data; the events are those of R169. -/
def afterFailure (s : State) (c : Cause) : State :=
  if s.attempts < s.cfgBudget then
    { s with cause := c, phase := .build, events := s.events ++ [.check s.attempts c] }
  else
    { s with
      cause := c
      plen := 0
      xstate := .exhausted
      busy := false
      events := s.events ++ [.check s.attempts c] ++ [.endExhausted s.cfgBudget] }

/-- The nine instructions that are ignored while a transaction runs: the six commands and the three decoder modes. -/
def isCommand : Instr → Bool
  | .crc16 => true
  | .verify => true
  | .encode => true
  | .decrsp => true
  | .xact => true
  | .decode => true
  | .decHex _ => true
  | .decU => true
  | .decS => true
  | _ => false

/-- The five response rows. -/
def isResponse : Instr → Bool
  | .exc03 _ _ _ => true
  | .exc04 _ _ _ => true
  | .exc06 _ _ _ => true
  | .exc10 _ _ _ => true
  | .rsp _ => true
  | _ => false

/-- DECODE and its three modes. -/
def isDecode : Instr → Bool
  | .decode => true
  | .decHex _ => true
  | .decU => true
  | .decS => true
  | _ => false

end Sys2Proof.Machine

open Sys2Proof Sys2Proof.Machine

/-! ## Encoding -/

/-- Every well-formed instruction of a code space decodes, in that space, from its own bytes, with every operand, whatever the
parameters of the block (30_encoding.md sections 1 to 3 and 7). That a request row carries its frame's operands is log 15. -/
def Obligations.DecodeOfEncode : Prop :=
  ∀ (c : Params) (sp : Space) (i : Instr), i.wf c = true → i.inSpace sp = true → decode sp (encode i) = .ok i

/-- Whatever bytes decode to an instruction are that instruction's bytes: no two words share a meaning (30_encoding.md
sections 1 to 3 and 7). R110 matches a request row on its function code and the wide test alone; that a request frame with a
wrong CRC (R99), or one whose count byte is not its payload's length (R95), decodes to nothing is the model's, DEDUCED in
log 15. -/
def Obligations.EncodeOfDecode : Prop :=
  ∀ (sp : Space) (bytes : List Byte) (i : Instr), decode sp bytes = .ok i → encode i = bytes

/-- Words of the spec decode to the instructions they stand for: the command codes of 30_encoding.md R106, frames of
41_frame_codec.md R132, R133, R136 (their CRC bytes are those of the table of log 19), the response of 95_test_vectors.md Q3
under two requested codes, the modes of R107. -/
def Obligations.DecodeSpecWords : Prop :=
  decode .command [0x01#8] = .ok .crc16 ∧ decode .command [0x05#8] = .ok .xact ∧
    decode .command [0x07#8] = .error .illegalCmd ∧
    decode (.request 0x169#9) [0x01#8, 0x03#8, 0x00#8, 0x00#8, 0x0A#8, 0x99#8, 0x83#8] =
      .ok (.rdhN 0x01#8 0x0000#16 0x0A#8) ∧
    decode (.request 0x169#9) [0x69#8, 0x04#8, 0x01#8, 0x00#8, 0x01#8, 0x2C#8, 0xF9#8, 0x53#8] =
      .ok (.rdiW 0x69#8 0x0100#16 0x012C#16) ∧
    decode (.request 0x169#9) [0x01#8, 0x06#8, 0x00#8, 0x10#8, 0x12#8, 0x34#8, 0x85#8, 0x78#8] =
      .ok (.wrs 0x01#8 0x0010#16 [0x12#8, 0x34#8]) ∧
    decode (.response 0x03#8) [0x01#8, 0x83#8, 0x02#8, 0xC0#8, 0xF1#8] =
      .ok (.exc03 0x01#8 0x02#8 [0xC0#8, 0xF1#8]) ∧
    decode (.response 0x04#8) [0x01#8, 0x83#8, 0x02#8, 0xC0#8, 0xF1#8] =
      .ok (.rsp [0x01#8, 0x83#8, 0x02#8, 0xC0#8, 0xF1#8]) ∧
    decode .mode [0x02#8] = .ok (.decHex true) ∧ decode .mode [0x03#8] = .ok .decS

/-- The row the operand registers select is well formed, passes the wide test of its space, and its bytes are the frame
`encode_request` makes; where none is selected `encode_request` refuses (41_frame_codec.md section 1, 30_encoding.md R103; that the registers select a
row that carries its frame's operands is log 15). -/
def Obligations.OperandsSelectTheirFrame : Prop :=
  ∀ s : State,
    (∀ i, selectRequest s.operands = .ok i →
      i.wf s.params = true ∧ i.inSpace (.request s.cfgWide) = true ∧ encodeRequest s.operands = .ok (encode i)) ∧
    (∀ e, selectRequest s.operands = .error e → ∃ c, encodeRequest s.operands = .error c)

/-! ## CRC Engine -/

/-- 40_crc_engine.md R128: the round trip, and the consequence the rule marks as derived, that tests the table; the table's
polynomial is the spec's general knowledge (log 19). -/
def Obligations.CrcRoundTrip : Prop :=
  ∀ b : List Byte, verify (b ++ crc16Bytes b) = true ∧ crc16 (b ++ crc16Bytes b) = 0x0000#16

/-- 40_crc_engine.md R129, which the spec marks as derived: the bit-serial form gives the same register as the table form, for
every `r` and `b`. -/
def Obligations.BitSerialStepIsTableStep : Prop :=
  ∀ (r : Half) (b : Byte),
    crcStep r b =
      crcShift (crcShift (crcShift (crcShift (crcShift (crcShift (crcShift (crcShift (r ^^^ b.setWidth 16))))))))

/-- 40_crc_engine.md R124: false below two bytes (decision D21), else the CRC of all but the last two bytes equals those two
bytes, low byte first. -/
def Obligations.VerifyComparesTrailingBytes : Prop :=
  (∀ s : List Byte, s.length < 2 → verify s = false) ∧
    ∀ (body : List Byte) (lo hi : Byte),
      verify (body ++ [lo, hi]) = true ↔ crc16 body = lo.setWidth 16 ||| (hi.setWidth 16 <<< 8)

/-- 40_crc_engine.md R125 (the operand buffer is the spec's decision D1): CRC16 writes `CRCREG` and `ERR` and nothing else, at every `RXLEN`; `RXLEN = 0` gives 0xFFFF; while
`BUSY` it is ignored. -/
def Obligations.Crc16CommandResult : Prop :=
  ∀ s : State,
    (s.busy = true → exec .crc16 s = .next s) ∧
    (s.busy = false →
      exec .crc16 s = .next { s with crcreg := crc16 (s.readBytes .rxbuf s.rxlen), err := .ok }) ∧
    (s.busy = false → s.rxlen = 0 → exec .crc16 s = .next { s with crcreg := 0xFFFF#16, err := .ok })

/-- 40_crc_engine.md R126: VERIFY, code 0x02, writes `VOK` and `ERR` and nothing else; `RXLEN` of 0 or 1 gives `VOK` = 0; `RXLEN` = 2
with bytes FF FF gives `VOK` = 1. R126 says "require `BUSY` = 0"; that it is ignored while `BUSY` is 10_state.md R40, the spec's
decisions D15 and D27 (log 8). -/
def Obligations.VerifyCommandResult : Prop :=
  decode .command [0x02#8] = .ok .verify ∧ ∀ s : State,
    (s.busy = true → exec .verify s = .next s) ∧
    (s.busy = false →
      exec .verify s = .next { s with vok := verify (s.readBytes .rxbuf s.rxlen), err := .ok }) ∧
    (s.busy = false → s.rxlen < 2 → exec .verify s = .next { s with vok := false, err := .ok }) ∧
    (s.busy = false → s.rxlen = 2 → s.byteAt .rxbuf 0 = 0xFF#8 → s.byteAt .rxbuf 1 = 0xFF#8 →
      exec .verify s = .next { s with vok := true, err := .ok })

/-! ## Frame Codec -/

/-- The four read rows complete outside a transaction and in BUILD, with the frames of 41_frame_codec.md R132 and R133
(layouts 30_encoding.md R92, R93), and change `TXBUF` and `TXLEN` alone (R146). That elsewhere they change nothing is the
model's choice, log 14: no step runs them there. -/
def Obligations.ReadRowsBuildTheirFrame : Prop :=
  ∀ (s : State) (slave : Byte) (raddr : Half),
    (s.busy = false ∨ s.phase = .build →
      (∀ qty : Byte,
        (∃ t, exec (.rdhN slave raddr qty) s = .next t ∧
          Built s t ([slave, 0x03#8, raddr.extractLsb' 8 8, raddr.extractLsb' 0 8, qty] ++
            crc16Bytes [slave, 0x03#8, raddr.extractLsb' 8 8, raddr.extractLsb' 0 8, qty])) ∧
        (∃ t, exec (.rdiN slave raddr qty) s = .next t ∧
          Built s t ([slave, 0x04#8, raddr.extractLsb' 8 8, raddr.extractLsb' 0 8, qty] ++
            crc16Bytes [slave, 0x04#8, raddr.extractLsb' 8 8, raddr.extractLsb' 0 8, qty]))) ∧
      (∀ qty : Half,
        (∃ t, exec (.rdhW slave raddr qty) s = .next t ∧
          Built s t ([slave, 0x03#8, raddr.extractLsb' 8 8, raddr.extractLsb' 0 8, qty.extractLsb' 8 8,
              qty.extractLsb' 0 8] ++
            crc16Bytes [slave, 0x03#8, raddr.extractLsb' 8 8, raddr.extractLsb' 0 8, qty.extractLsb' 8 8,
              qty.extractLsb' 0 8])) ∧
        (∃ t, exec (.rdiW slave raddr qty) s = .next t ∧
          Built s t ([slave, 0x04#8, raddr.extractLsb' 8 8, raddr.extractLsb' 0 8, qty.extractLsb' 8 8,
              qty.extractLsb' 0 8] ++
            crc16Bytes [slave, 0x04#8, raddr.extractLsb' 8 8, raddr.extractLsb' 0 8, qty.extractLsb' 8 8,
              qty.extractLsb' 0 8])))) ∧
    (s.busy = true → s.phase ≠ .build →
      (∀ qty : Byte, exec (.rdhN slave raddr qty) s = .next s ∧ exec (.rdiN slave raddr qty) s = .next s) ∧
      (∀ qty : Half, exec (.rdhW slave raddr qty) s = .next s ∧ exec (.rdiW slave raddr qty) s = .next s))

/-- The two write rows complete outside a transaction and in BUILD, with the frames of 41_frame_codec.md R135 and R136
(layouts 30_encoding.md R94, R95), and change `TXBUF` and `TXLEN` alone (R146). That elsewhere they change nothing is the
model's choice, log 14: no step runs them there. -/
def Obligations.WriteRowsBuildTheirFrame : Prop :=
  ∀ (s : State) (slave : Byte) (raddr : Half) (payload : List Byte), payload.length ≤ 255 →
    (s.busy = false ∨ s.phase = .build →
      (∃ t, exec (.wrs slave raddr payload) s = .next t ∧
        Built s t ([slave, 0x06#8, raddr.extractLsb' 8 8, raddr.extractLsb' 0 8] ++ payload ++
          crc16Bytes ([slave, 0x06#8, raddr.extractLsb' 8 8, raddr.extractLsb' 0 8] ++ payload))) ∧
      (∃ t, exec (.wrm slave raddr payload) s = .next t ∧
        Built s t ([slave, 0x10#8, raddr.extractLsb' 8 8, raddr.extractLsb' 0 8, BitVec.ofNat 8 payload.length] ++ payload ++
          crc16Bytes ([slave, 0x10#8, raddr.extractLsb' 8 8, raddr.extractLsb' 0 8,
            BitVec.ofNat 8 payload.length] ++ payload)))) ∧
    (s.busy = true → s.phase ≠ .build →
      exec (.wrs slave raddr payload) s = .next s ∧ exec (.wrm slave raddr payload) s = .next s)

/-- 41_frame_codec.md R137 (decision D9): the function-code check first, then the quantity of a write, then that of a narrow
read; everything else is legal, a wide read at every `QTY`; and the wide test is R134's (decision D6). -/
def Obligations.OperandChecks : Prop :=
  ∀ (fc : Byte) (qty : Half) (slave : Byte) (p : Profile),
    (checkOperands fc qty slave p = some .illegalFc ↔ fc ≠ 0x03#8 ∧ fc ≠ 0x04#8 ∧ fc ≠ 0x06#8 ∧ fc ≠ 0x10#8) ∧
    (checkOperands fc qty slave p = some .badQty ↔
      ((fc = 0x06#8 ∨ fc = 0x10#8) ∨ ((fc = 0x03#8 ∨ fc = 0x04#8) ∧ isWide slave fc p = false)) ∧ 255 < qty.toNat) ∧
    (∀ e, checkOperands fc qty slave p = some e → e = .illegalFc ∨ e = .badQty) ∧
    (isWide slave fc p = true ↔
      (fc = 0x03#8 ∨ fc = 0x04#8) ∧ p.getLsbD 8 = true ∧ slave = p.extractLsb' 0 8) ∧
    (isWide slave fc p = true → checkOperands fc qty slave p = none)

/-- 41_frame_codec.md R142: ENCODE, code 0x03, puts the frame in `TXBUF`, `TXLEN` and sets `ERR` to 0, or refuses, changing `ERR` alone, when
the check of R137 raises a refusal; while `BUSY` it is ignored. -/
def Obligations.EncodeCommandResult : Prop :=
  decode .command [0x03#8] = .ok .encode ∧ ∀ s : State,
    (s.busy = true → exec .encode s = .next s) ∧
    (∀ e, s.busy = false → checkOperands s.fc s.qty s.slave s.cfgWide = some e →
      exec .encode s = .next { s with err := e }) ∧
    (s.busy = false → checkOperands s.fc s.qty s.slave s.cfgWide = none →
      ∃ frame t, encodeRequest s.operands = .ok frame ∧ exec .encode s = .next { t with err := .ok } ∧ Built s t frame)

/-- ENCODE is the row its operand registers select (log 15), and then `ERR` 0 (41_frame_codec.md section 3, 30_encoding.md
R110). -/
def Obligations.EncodeRunsTheSelectedRow : Prop :=
  ∀ (s : State) (i : Instr), s.busy = false → selectRequest s.operands = .ok i →
    ∃ t, exec i s = .next t ∧ exec .encode s = .next { t with err := .ok }

/-- 41_frame_codec.md R143: DECRSP, code 0x04, strips without checking, `PBUF`, `PLEN` and `ERR` change and nothing else; `RXLEN` of 5 or less
gives `PLEN` = 0. R143 says "require `BUSY` = 0"; that it is ignored while `BUSY` is 10_state.md R40, the spec's decisions D15
and D27 (log 8). -/
def Obligations.DecrspCommandResult : Prop :=
  decode .command [0x04#8] = .ok .decrsp ∧ ∀ s : State,
    (s.busy = true → exec .decrsp s = .next s) ∧
    (s.busy = false →
      ∃ t, exec .decrsp s = .next t ∧
        PayloadIs s t ((((s.readBytes .rxbuf s.rxlen).drop 3).take (s.rxlen - 3 - 2))) ∧
        (s.rxlen ≤ 5 → t.plen = 0) ∧
        t = { s with pbuf := t.pbuf, plen := t.plen, err := .ok })

/-! ## Transaction Executor -/

/-- 42_transaction_executor.md R151, R152: XACT refused, started, or exhausted at once when the budget is 0; ignored while `BUSY`.
The history is that of R169. The clearing of the bookkeeping registers is the spec's decision D14, the zero budget its
decision D8. -/
def Obligations.XactCommandResult : Prop :=
  ∀ s : State,
    (s.busy = true → exec .xact s = .next s) ∧
    (∀ e, s.busy = false → checkOperands s.fc s.qty s.slave s.cfgWide = some e →
      exec .xact s = .next { s with err := e }) ∧
    (s.busy = false → checkOperands s.fc s.qty s.slave s.cfgWide = none → s.cfgBudget ≠ 0 →
      exec .xact s = .next { s with
        err := .ok, attempts := 0, cause := .none, excode := 0#8, rxlen := 0
        xstate := .attempt, phase := .build, busy := true }) ∧
    (s.busy = false → checkOperands s.fc s.qty s.slave s.cfgWide = none → s.cfgBudget = 0 →
      exec .xact s = .next { s with
        err := .ok, attempts := 0, cause := .none, excode := 0#8, rxlen := 0
        xstate := .exhausted, plen := 0, events := s.events ++ [.endExhausted 0] })

/-- The four EXC rows complete in CHECK: `EXCODE` is byte 2, the attempt fails with EXCEPTION, and nothing else changes
(42_transaction_executor.md R157, 60_exceptions.md R206); elsewhere they change nothing (log 14). -/
def Obligations.ExceptionRowsFailTheAttempt : Prop :=
  ∀ (s : State) (addr code : Byte) (tail : List Byte) (i : Instr),
    i = .exc03 addr code tail ∨ i = .exc04 addr code tail ∨ i = .exc06 addr code tail ∨ i = .exc10 addr code tail →
    (s.busy = true → s.phase = .check →
      exec i s = .next (afterFailure { s with excode := code } .exception)) ∧
    (s.busy = false ∨ s.phase ≠ .check → exec i s = .next s)

/-- The row RSP completes in CHECK: EMPTY, SHORT or CRC fails the attempt, else the stripped payload is in `PBUF` and the
transaction is in SUCCESS (42_transaction_executor.md R157, R158, 41_frame_codec.md R141); elsewhere it changes nothing
(log 14). -/
def Obligations.ResponseRowEndsTheAttempt : Prop :=
  ∀ (s : State) (raw : List Byte),
    (s.busy = true → s.phase = .check →
      (raw.length = 0 → exec (.rsp raw) s = .next (afterFailure s .empty)) ∧
      (1 ≤ raw.length → raw.length < 5 → exec (.rsp raw) s = .next (afterFailure s .short)) ∧
      (5 ≤ raw.length → verify raw = false → exec (.rsp raw) s = .next (afterFailure s .crc)) ∧
      (5 ≤ raw.length → verify raw = true →
        ∃ t, exec (.rsp raw) s = .next t ∧ PayloadIs s t ((raw.drop 3).take (raw.length - 5)) ∧
          t = { s with
            pbuf := t.pbuf, plen := t.plen, xstate := .success, busy := false
            events := s.events ++ [.check s.attempts .none, .endSuccess s.attempts] })) ∧
    (s.busy = false ∨ s.phase ≠ .check → exec (.rsp raw) s = .next s)

/-- 42_transaction_executor.md R153: BUILD counts the attempt, builds the frame, goes to FLUSH; nothing else changes but the
history (R169). The premise on the operands is `State.Inv.operands_legal`. -/
def Obligations.BuildStepResult : Prop :=
  ∀ s : State, s.inbox = [] → s.busy = true → s.phase = .build →
    checkOperands s.fc s.qty s.slave s.cfgWide = none →
    ∃ frame t u, encodeRequest s.operands = .ok frame ∧ Built s t frame ∧ step s = .next u ∧
      u = { t with
        attempts := s.attempts + 1, phase := .flush
        events := s.events ++ [.build (s.attempts + 1) frame] }

/-- 42_transaction_executor.md R154: FLUSH discards what waits on the receive side and goes to WRITE, or fails the attempt with
TRANSPORT (decision D12). The call uses up its own draw, `popAnswer` (20_memory.md R66; log 3, the model's form), and that a
failed flush leaves the waiting bytes as they are is the model's choice, log 21. -/
def Obligations.FlushStepResult : Prop :=
  ∀ s : State, s.inbox = [] → s.busy = true → s.phase = .flush →
    (s.answer ≠ .fail →
      step s = .next { s.popAnswer with line := [], phase := .write, events := s.events ++ [.flush true] }) ∧
    (s.answer = .fail →
      step s = .next (afterFailure { s.popAnswer with events := s.events ++ [.flush false] } .transport))

/-- 42_transaction_executor.md R155: WRITE hands the whole frame over and goes to READ, or fails the attempt with TRANSPORT
(decision D12). The call uses up its own draw, `popAnswer` (20_memory.md R66; log 3, the model's form); how much of the frame a
failed write sent is no state, the model's choice, log 21. -/
def Obligations.WriteStepResult : Prop :=
  ∀ s : State, s.inbox = [] → s.busy = true → s.phase = .write →
    (s.answer ≠ .fail →
      step s = .next { s.popAnswer with
        phase := .read, events := s.events ++ [.tx (s.readBytes .txbuf s.txlen) true] }) ∧
    (s.answer = .fail →
      step s = .next (afterFailure { s.popAnswer with
        events := s.events ++ [.tx (s.readBytes .txbuf s.txlen) false] } .transport))

/-- 42_transaction_executor.md R156, with the bytes available being those that wait since the flush and then those the draw
brings (20_memory.md R65; log 5): fail gives TRANSPORT with `RXLEN` 0; more than `P_RX_MAX` bytes give OVERFLOW with the first
`P_RX_MAX` kept (decision D11); else the bytes are in `RXBUF` and CHECK is next. The call uses up its own draw, `popAnswer`
(20_memory.md R66; log 3, the model's form), and that a failed read leaves the waiting bytes is the model's choice, log 21. -/
def Obligations.ReadStepResult : Prop :=
  ∀ s : State, s.inbox = [] → s.busy = true → s.phase = .read →
    (s.answer = .fail →
      step s = .next (afterFailure { s.popAnswer with
        rxlen := 0, events := s.events ++ [.rx none] } .transport)) ∧
    (∀ r, s.answer = .ok r → s.params.rxMax < (s.line ++ r).length →
      ∃ t, ResponseIs s t ((s.line ++ r).take s.params.rxMax) ∧
        t = { s.popAnswer with
          rxbuf := t.rxbuf, rxlen := t.rxlen, line := [], events := s.events ++ [.rx (some (s.line ++ r))] } ∧
        step s = .next (afterFailure t .overflow)) ∧
    (∀ r, s.answer = .ok r → (s.line ++ r).length ≤ s.params.rxMax →
      ∃ t, ResponseIs s t (s.line ++ r) ∧
        t = { s.popAnswer with
          rxbuf := t.rxbuf, rxlen := t.rxlen, line := [], phase := .check
          events := s.events ++ [.rx (some (s.line ++ r))] } ∧
        step s = .next t)

/-- 42_transaction_executor.md R157: the tests of CHECK on the received bytes, in the rule's order. The premise on the operands
is `State.Inv.operands_legal`. -/
def Obligations.CheckStepTests : Prop :=
  ∀ (s : State) (raw : List Byte), s.inbox = [] → s.busy = true → s.phase = .check →
    checkOperands s.fc s.qty s.slave s.cfgWide = none →
    raw = s.readBytes .rxbuf s.rxlen →
    (raw.length = 0 → step s = .next (afterFailure s .empty)) ∧
    (1 ≤ raw.length → raw.length < 5 → step s = .next (afterFailure s .short)) ∧
    (5 ≤ raw.length → raw[1]? = some (s.fc ||| 0x80#8) →
      ∃ code, raw[2]? = some code ∧ step s = .next (afterFailure { s with excode := code } .exception)) ∧
    (5 ≤ raw.length → raw[1]? ≠ some (s.fc ||| 0x80#8) → verify raw = false →
      step s = .next (afterFailure s .crc)) ∧
    (5 ≤ raw.length → raw[1]? ≠ some (s.fc ||| 0x80#8) → verify raw = true →
      ∃ t, step s = .next t ∧ t.xstate = .success ∧ t.busy = false ∧
        PayloadIs s t ((raw.drop 3).take (raw.length - 5)))

/-- The attempt succeeds exactly when the response is accepted (41_frame_codec.md R141, 42_transaction_executor.md R157). -/
def Obligations.CheckSucceedsIffAccepted : Prop :=
  ∀ s t : State, s.inbox = [] → s.busy = true → s.phase = .check →
    checkOperands s.fc s.qty s.slave s.cfgWide = none → step s = .next t →
    ((t.xstate = .success ∧ t.busy = false) ↔ accepted s.response s.fc = true)

/-- The step machine is the function of 42_transaction_executor.md R170: after an accepted XACT, with no host event pending, at
most `5 * N` steps end the transaction as `transact` says of the answers the channel gives. The bound and that the transaction
ends at all rest on R168 and on log 4 (DEDUCED: every channel call returns), the answers on log 3 (a draw for each call, put
together by attempt as R170 lists them). -/
def Obligations.TransactionIsTransact : Prop :=
  ∀ s s₁ : State, s.inbox = [] → s.busy = false → s.operandError = none → exec .xact s = .next s₁ →
    ∃ k t, k ≤ 5 * s.cfgBudget ∧ Sys2Proof.core.run k s₁ = .next t ∧ t.busy = false ∧
      (∀ j p, transact s.params s.fc (s.upcoming s.cfgBudget) = .success j p →
        t.xstate = .success ∧ t.attempts = j ∧ t.payload = p ∧ t.plen = p.length) ∧
      (∀ n c, transact s.params s.fc (s.upcoming s.cfgBudget) = .exhausted n c →
        t.xstate = .exhausted ∧ t.attempts = n ∧ t.cause = c ∧ t.plen = 0)

/-- 42_transaction_executor.md R168: from any moment of a transaction, with no host event pending, at most `5 * N` steps end it,
in SUCCESS or EXHAUSTED, with at most `N` attempts. That every channel call returns, in one step, is log 4
(DEDUCED; the rule says "A model that takes each channel call as one step that always returns therefore has no infinite
transaction"). -/
def Obligations.TransactionEnds : Prop :=
  ∀ s : State, s.Inv → s.inbox = [] → s.busy = true →
    ∃ k t, k ≤ 5 * s.cfgBudget ∧ Sys2Proof.core.run k s = .next t ∧ t.busy = false ∧
      (t.xstate = .success ∨ t.xstate = .exhausted) ∧ t.attempts ≤ s.cfgBudget ∧ t.cfgBudget = s.cfgBudget

/-- The property of the source in 42_transaction_executor.md R163: when every response is malformed, exactly `N` attempts, `N`
equal frames written, and no data. That the run ends rests on log 4 (DEDUCED: every channel call returns), the answers on log 3
(a draw for each call). -/
def Obligations.ExhaustionMakesExactlyNAttempts : Prop :=
  ∀ (s s₁ : State) (frame : List Byte), s.inbox = [] → s.busy = false →
    encodeRequest s.operands = .ok frame → exec .xact s = .next s₁ →
    (∀ a ∈ s.upcoming s.cfgBudget, ∃ r, a = .rx r ∧ accepted r s.fc = false) →
    ∃ k t, Sys2Proof.core.run k s₁ = .next t ∧ t.busy = false ∧ t.xstate = .exhausted ∧ t.attempts = s.cfgBudget ∧
      t.plen = 0 ∧
      t.events.filter isTx = s.events.filter isTx ++ List.replicate s.cfgBudget (.tx frame true)

/-- Bytes that wait on the channel before an attempt never reach the block (20_memory.md R63, R78, 10_state.md R41): two runs that
differ only in them are the same but for them, however long. -/
def Obligations.StaleBytesNeverMatter : Prop :=
  ∀ (s : State) (stale : List Byte) (k : Nat), s.inbox = [] → s.busy = true → s.phase = .build →
    match Sys2Proof.core.run k s, Sys2Proof.core.run k { s with line := stale } with
    | .next t, .next u => ({ t with line := [] } : State) = { u with line := [] }
    | .fault a, .fault b => a = b
    | .refused a, .refused b => a = b
    | _, _ => False

/-- The block never stops: from every state that meets the invariant a step answers a next state
(42_transaction_executor.md R164). -/
def Obligations.NeverStops : Prop :=
  ∀ s : State, s.Inv → ∃ t, step s = .next t

/-- Every step keeps the invariant `State.Inv`: the lengths within the capacities, the buffers canonical, XSTATE with BUSY,
legal operands, counted attempts and the built frame while a transaction runs, the sentinel
(10_state.md sections 2 and 5, 41_frame_codec.md R146, 43_register_decoder.md R189). -/
def Obligations.StepKeepsInvariant : Prop :=
  ∀ s t : State, s.Inv → step s = .next t → t.Inv

/-- The state after reset meets the invariant. -/
def Obligations.ResetMeetsInvariant : Prop := State.reset.Inv

/-! ## Whole-machine rules -/

/-- 41_frame_codec.md R146: `TXBUF` and `TXLEN` are written by an ENCODE command or a BUILD step; no other step but a reset
(70_reset_and_hazards.md R230) changes them. -/
def Obligations.OnlyEncodeAndBuildWriteTheFrame : Prop :=
  ∀ s t : State, step s = .next t → s.inbox.head? ≠ some .reset →
    ¬ (s.busy = true ∧ s.phase = .build) →
    ¬ (s.busy = false ∧ ∃ v, s.inbox.head? = some (.write 0x00 v) ∧ v % 256 = 0x03) →
    t.txlen = s.txlen ∧ ∀ j, t.byteAt .txbuf j = s.byteAt .txbuf j

/-- 10_state.md R40, 20_memory.md R79: while `BUSY` no step but a reset changes an operand or configuration register or `WBUF`
(decisions D15, D27). -/
def Obligations.OperandsFrozenWhileBusy : Prop :=
  ∀ s t : State, s.busy = true → step s = .next t → s.inbox.head? ≠ some .reset →
    t.slave = s.slave ∧ t.fc = s.fc ∧ t.raddr = s.raddr ∧ t.qty = s.qty ∧ t.desc = s.desc ∧
      t.cfgBudget = s.cfgBudget ∧ t.cfgWide = s.cfgWide ∧ (∀ j, t.byteAt .wbuf j = s.byteAt .wbuf j)

/-- 20_memory.md R84: "no command writes `SLAVE`, `FC`, `RADDR`, `QTY` or `WBUF`; only the host does"; nor does any instruction
write `DESC`, the configuration, the channel's line or the inputs. -/
def Obligations.NoInstructionWritesOperands : Prop :=
  ∀ (i : Instr) (s t : State), exec i s = .next t →
    t.slave = s.slave ∧ t.fc = s.fc ∧ t.raddr = s.raddr ∧ t.qty = s.qty ∧ t.desc = s.desc ∧
      t.cfgBudget = s.cfgBudget ∧ t.cfgWide = s.cfgWide ∧ (∀ j, t.byteAt .wbuf j = s.byteAt .wbuf j) ∧
      t.line = s.line ∧ t.chan = s.chan ∧ t.inbox = s.inbox ∧ t.rdata = s.rdata

/-- 10_state.md R39 (decision D14) and R34: which instruction may change each flag and `CRCREG`; a decoder mode counts as DECODE
(log 16). -/
def Obligations.FlagsWrittenOnlyByTheirInstructions : Prop :=
  ∀ (i : Instr) (s t : State), exec i s = .next t →
    (t.vok ≠ s.vok → i = .verify) ∧
    (t.crcreg ≠ s.crcreg → i = .crc16) ∧
    (t.dvalid ≠ s.dvalid → isDecode i = true) ∧
    (t.busy ≠ s.busy → (i = .xact ∧ t.busy = true) ∨ (isResponse i = true ∧ t.busy = false)) ∧
    (t.xstate ≠ s.xstate → i = .xact ∨ isResponse i = true) ∧
    (t.err ≠ s.err → isCommand i = true ∧ s.busy = false)

/-- 10_state.md R40 (decision D15): every command is ignored while `BUSY`, "it changes nothing, not even `ERR`". R40 and R165
speak of host writes; that a decoder mode run as an instruction is ignored too is the model's choice, log 16. -/
def Obligations.CommandsIgnoredWhileBusy : Prop :=
  ∀ (i : Instr) (s : State), isCommand i = true → s.busy = true → exec i s = .next s

/-- A step runs the decoded instruction: the command whose code the host writes to `CMD`, on the state less that event; in BUILD
the row the operand registers select (log 15), on the state with the attempt counted, and then the phase and the history; in
CHECK the row the received bytes are classed as (30_encoding.md R110, 42_transaction_executor.md R153, R157). -/
def Obligations.StepRunsTheDecodedInstruction : Prop :=
  (∀ (s : State) (v : Nat) (rest : List Input) (i : Instr), s.busy = false → s.inbox = .write 0x00 v :: rest →
    decode .command [BitVec.ofNat 8 v] = .ok i → step s = exec i { s with inbox := rest }) ∧
  (∀ (s t : State) (i : Instr), s.busy = true → s.inbox = [] → s.phase = .build →
    selectRequest s.operands = .ok i → exec i { s with attempts := s.attempts + 1 } = .next t →
    step s = .next { t with phase := .flush, events := t.events ++ [.build t.attempts t.frame] }) ∧
  (∀ (s : State) (i : Instr), s.busy = true → s.inbox = [] → s.phase = .check →
    decode (.response s.fc) s.response = .ok i → step s = exec i s)

/-! ## Register Decoder -/

/-- 43_register_decoder.md R182: DECODE is the mode `DESC` selects by `ENC` (bit 0) and `SGN` (bit 1) alone. The last clause is
R187's and R191's (decision D19): it completes with `ERR` 0 and `DVALID` telling whether there was a payload, but for the decimal
decode of more than `P_VAL_BYTES` bytes. That a mode run as an instruction is the whole of DECODE is the model's choice,
log 16. -/
def Obligations.DecodeRunsTheSelectedMode : Prop :=
  ∀ s : State,
    (s.desc.getLsbD 0 = false → exec .decode s = exec (.decHex (s.desc.getLsbD 1)) s) ∧
    (s.desc.getLsbD 0 = true → s.desc.getLsbD 1 = false → exec .decode s = exec .decU s) ∧
    (s.desc.getLsbD 0 = true → s.desc.getLsbD 1 = true → exec .decode s = exec .decS s) ∧
    (s.busy = false → ¬ (s.desc.getLsbD 0 = true ∧ s.params.valBytes < s.plen) →
      ∃ t, exec .decode s = .next t ∧ t.err = .ok ∧ t.dvalid = decide (s.plen ≠ 0))

/-- 43_register_decoder.md R187: DECODE, code 0x06, whole: ignored while `BUSY`; the sentinel for an empty payload; the hex string;
the refusal of a decimal payload above `P_VAL_BYTES`; the unsigned and the signed number, extended to the `8 x P_VAL_BYTES` bits of
`DVAL` (64 at the spec's value); and nothing else changes. -/
def Obligations.DecodeCommandResult : Prop :=
  decode .command [0x06#8] = .ok .decode ∧ ∀ s : State,
    (s.busy = true → exec .decode s = .next s) ∧
    (s.busy = false → s.plen = 0 →
      exec .decode s = .next { s with dvalid := false, dval := 0, hlen := 0, err := .ok }) ∧
    (s.busy = false → s.plen ≠ 0 → s.desc.getLsbD 0 = false →
      ∃ t, exec .decode s = .next t ∧ t.hlen = 2 + 2 * s.plen ∧
        t.readBytes .hbuf t.hlen = hexString (s.readBytes .pbuf s.plen) ∧
        (∀ j, t.hlen ≤ j → t.byteAt .hbuf j = s.byteAt .hbuf j) ∧
        t = { s with hbuf := t.hbuf, hlen := t.hlen, dval := 0, dvalid := true, err := .ok }) ∧
    (s.busy = false → s.params.valBytes < s.plen → s.desc.getLsbD 0 = true →
      exec .decode s = .next { s with err := .badLen }) ∧
    (s.busy = false → s.plen ≠ 0 → s.plen ≤ s.params.valBytes → s.desc.getLsbD 0 = true → s.desc.getLsbD 1 = false →
      exec .decode s = .next { s with
        dval := be (s.readBytes .pbuf s.plen), hlen := 0, dvalid := true, err := .ok }) ∧
    (s.busy = false → s.plen ≠ 0 → s.plen ≤ s.params.valBytes → s.desc.getLsbD 0 = true → s.desc.getLsbD 1 = true →
      exec .decode s = .next { s with
        dval := ((BitVec.ofNat (8 * s.plen) (be (s.readBytes .pbuf s.plen))).signExtend (8 * s.params.valBytes)).toNat
        hlen := 0, dvalid := true, err := .ok })

/-- 43_register_decoder.md R181: an empty payload gives the sentinel in every mode (`ERR` 0, 60_exceptions.md R209). That `DVAL`
and `HLEN` are 0 and nothing else changes is R187's and R189's (decision D18); that a mode run as an instruction is DECODE is
the model's choice, log 16. -/
def Obligations.EmptyPayloadGivesTheSentinel : Prop :=
  ∀ (s : State) (i : Instr), isDecode i = true → s.busy = false → s.plen = 0 →
    exec i s = .next { s with dvalid := false, dval := 0, hlen := 0, err := .ok }

/-- 43_register_decoder.md R183: DEC.U gives the big-endian number of the payload, zero-extended in `DVAL`; nothing else changes
but the flags and `HLEN` (R187). The mode as an instruction is DECODE under it (log 16). -/
def Obligations.DecimalUnsignedResult : Prop :=
  ∀ s : State, s.busy = false → 1 ≤ s.plen → s.plen ≤ s.params.valBytes →
    ∃ v : BitVec (8 * s.params.valBytes), v.toNat = be (s.readBytes .pbuf s.plen) ∧
      exec .decU s = .next { s with dval := v.toNat, hlen := 0, dvalid := true, err := .ok }

/-- 43_register_decoder.md R185 (two's complement, which the rule marks as derived from the source's example): DEC.S gives the two's-complement number of the payload, sign-extended in `DVAL`: less `256^n`
when bit 7 of byte 0 is 1; nothing else changes but the flags and `HLEN` (R187). The mode as an instruction is DECODE under it
(log 16). -/
def Obligations.DecimalSignedResult : Prop :=
  ∀ s : State, s.busy = false → 1 ≤ s.plen → s.plen ≤ s.params.valBytes →
    ∃ v : BitVec (8 * s.params.valBytes),
      v.toInt = (if (s.byteAt .pbuf 0).getLsbD 7 then
          (be (s.readBytes .pbuf s.plen) : Int) - 256 ^ s.plen
        else be (s.readBytes .pbuf s.plen)) ∧
      exec .decS s = .next { s with dval := v.toNat, hlen := 0, dvalid := true, err := .ok }

/-- 43_register_decoder.md R184: DEC.HEX writes "0x" and two upper-case ASCII digits per byte to `HBUF`, `2 + 2n` to `HLEN`, and 0
to `DVAL`; the other bytes of `HBUF` and everything else stay; `SGN` is ignored (decisions D20, D30). The mode as an instruction
is DECODE under it (log 16). -/
def Obligations.HexStringResult : Prop :=
  ∀ (s : State) (sgn : Bool), s.busy = false → 1 ≤ s.plen →
    ∃ t, exec (.decHex sgn) s = .next t ∧ t.hlen = 2 + 2 * s.plen ∧
      t.byteAt .hbuf 0 = 0x30#8 ∧ t.byteAt .hbuf 1 = 0x78#8 ∧
      (∀ j, j < s.plen →
        t.byteAt .hbuf (2 + 2 * j) = hexDigit ((s.byteAt .pbuf j).extractLsb' 4 4) ∧
        t.byteAt .hbuf (3 + 2 * j) = hexDigit ((s.byteAt .pbuf j).extractLsb' 0 4)) ∧
      (∀ j, 2 + 2 * s.plen ≤ j → t.byteAt .hbuf j = s.byteAt .hbuf j) ∧
      t = { s with hbuf := t.hbuf, hlen := t.hlen, dval := 0, dvalid := true, err := .ok }

/-- 43_register_decoder.md R191 (decision D19): a decimal DECODE of more than `P_VAL_BYTES` bytes is refused with BAD_LEN and
changes `ERR` alone. R191 speaks of the command; that the modes DEC.U and DEC.S, run as instructions, refuse as it does is the
model's choice, log 16. -/
def Obligations.LongDecimalIsRefused : Prop :=
  ∀ s : State, s.busy = false → s.params.valBytes < s.plen →
    exec .decU s = .next { s with err := .badLen } ∧ exec .decS s = .next { s with err := .badLen } ∧
      (s.desc.getLsbD 0 = true → exec .decode s = .next { s with err := .badLen })

/-- 43_register_decoder.md R190, which the spec derives from R187: a second DECODE gives the same `DVALID`, `DVAL`, `HLEN` and `HBUF`. -/
def Obligations.DecodeTwiceIsDecodeOnce : Prop :=
  ∀ s t : State, s.busy = false → exec .decode s = .next t →
    ∃ u, exec .decode t = .next u ∧ u.dvalid = t.dvalid ∧ u.dval = t.dval ∧ u.hlen = t.hlen ∧
      (∀ j, u.byteAt .hbuf j = t.byteAt .hbuf j) ∧ u.pbuf = t.pbuf ∧ u.plen = t.plen ∧ u.desc = t.desc

/-- The values of the decimal decoder (43_register_decoder.md R183, R185, R188): byte 0 is the most significant, and the ranges are
those of an `8n`-bit number. -/
def Obligations.BigEndianValueAndRange : Prop :=
  (∀ (b : Byte) (p : List Byte), be (b :: p) = b.toNat * 256 ^ p.length + be p) ∧
    (∀ p : List Byte, be p < 256 ^ p.length) ∧
    ∀ p : List Byte, p ≠ [] → -(256 ^ p.length : Int) ≤ 2 * sbe p ∧ 2 * sbe p < 256 ^ p.length

/-! ## The host's accesses -/

/-- 10_state.md R40 (decisions D15, D27): a host write to any register or buffer while `BUSY` changes nothing (log 8). -/
def Obligations.WritesIgnoredWhileBusy : Prop :=
  ∀ (s : State) (rest : List Input), s.busy = true →
    (∀ reg v, s.inbox = .write reg v :: rest → step s = .next { s with inbox := rest }) ∧
    (∀ b i v, s.inbox = .writeBuf b i v :: rest → step s = .next { s with inbox := rest })

/-- 10_state.md R40, R44, R35: while `BUSY` a read of `STATUS` returns its fields; any other read while `BUSY`, a read of an
unlisted register number, busy or not, and a read of a buffer byte at or beyond its length or its capacity return some value of
the width of what is read and change nothing else (decisions D15, D1). The value is free (logs 7, 8 and 9); an unlisted number
is read with the width of `DVAL`, the widest register (log 9, the model's choice). -/
def Obligations.ReadsOfUnspecifiedValues : Prop :=
  ∀ (s : State) (rest : List Input),
    (s.busy = true → s.inbox = .read 0x01 :: rest →
      step s = .next { s with inbox := rest, rdata := s.status.toNat }) ∧
    (∀ reg r, s.busy = true → reg ≠ 0x01 → regOfNumber reg = some r → s.inbox = .read reg :: rest →
      ∃ v, v < 2 ^ regWidth s.params r ∧
        step s = .next { s with inbox := rest, rdata := v, readDraws := s.readDraws + 1 }) ∧
    (∀ reg, 0x11 < reg → s.inbox = .read reg :: rest →
      ∃ v, v < 2 ^ (8 * s.params.valBytes) ∧
        step s = .next { s with inbox := rest, rdata := v, readDraws := s.readDraws + 1 }) ∧
    (∀ b i, s.busy = true ∨ bufCapacity s.params b ≤ i ∨ s.validBytes b ≤ i → s.inbox = .readBuf b i :: rest →
      ∃ v, v < 2 ^ 8 ∧
        step s = .next { s with inbox := rest, rdata := v, readDraws := s.readDraws + 1 })

/-- 10_state.md R44: a value wider than a register is truncated to its width; a write to a read-only register or buffer, or to a
number or index R20 does not list, has no effect (decision D1). -/
def Obligations.HostWritesTruncateOrHaveNoEffect : Prop :=
  ∀ (s : State) (rest : List Input) (v : Nat), s.busy = false →
    (s.inbox = .write 0x02 v :: rest →
      step s = .next { s with inbox := rest, cfgBudget := v % 2 ^ s.params.budgetW }) ∧
    (s.inbox = .write 0x03 v :: rest →
      step s = .next { s with inbox := rest, cfgWide := BitVec.ofNat 9 (v % 512) }) ∧
    (s.inbox = .write 0x04 v :: rest →
      step s = .next { s with inbox := rest, slave := BitVec.ofNat 8 (v % 256) }) ∧
    (s.inbox = .write 0x05 v :: rest →
      step s = .next { s with inbox := rest, fc := BitVec.ofNat 8 (v % 256) }) ∧
    (s.inbox = .write 0x06 v :: rest →
      step s = .next { s with inbox := rest, raddr := BitVec.ofNat 16 (v % 65536) }) ∧
    (s.inbox = .write 0x07 v :: rest →
      step s = .next { s with inbox := rest, qty := BitVec.ofNat 16 (v % 65536) }) ∧
    (s.inbox = .write 0x08 v :: rest →
      step s = .next { s with inbox := rest, desc := BitVec.ofNat 2 (v % 4) }) ∧
    (∀ reg, reg ∈ [0x01, 0x09, 0x0A, 0x0B, 0x0C, 0x0D, 0x10, 0x11] ∨ 0x11 < reg →
      s.inbox = .write reg v :: rest → step s = .next { s with inbox := rest }) ∧
    (∀ b i, b = .txbuf ∨ b = .hbuf ∨ bufCapacity s.params b ≤ i →
      s.inbox = .writeBuf b i v :: rest → step s = .next { s with inbox := rest })

/-- 10_state.md R35 (decision D28): a host write above the maximum to `RXLEN` or `PLEN` keeps the register and sets `ERR` to 4;
any other value is taken. The maxima are the parameters `P_RX_MAX` (256) and `P_PAY_MAX` (251). -/
def Obligations.LengthWritesAboveCapacityAreRefused : Prop :=
  ∀ (s : State) (rest : List Input) (v : Nat), s.busy = false →
    (s.inbox = .write 0x0E v :: rest →
      (s.params.rxMax < v → step s = .next { s with inbox := rest, err := .badLen }) ∧
      (v ≤ s.params.rxMax → step s = .next { s with inbox := rest, rxlen := v })) ∧
    (s.inbox = .write 0x0F v :: rest →
      (s.params.payMax < v → step s = .next { s with inbox := rest, err := .badLen }) ∧
      (v ≤ s.params.payMax → step s = .next { s with inbox := rest, plen := v }))

/-- 30_encoding.md R105 (decision D2): command codes 0x00 and 0x07 to 0xFF are refused with `ERR` = 1 and do nothing else. A value
above 255 written to `CMD` is truncated to its low byte first (10_state.md R44). -/
def Obligations.ReservedCommandsAreRefused : Prop :=
  ∀ (s : State) (rest : List Input) (c : Nat), s.busy = false → c % 256 = 0 ∨ 7 ≤ c % 256 →
    s.inbox = .write 0x00 c :: rest → step s = .next { s with inbox := rest, err := .illegalCmd }

/-- 10_state.md R20, R24: a host read returns what the register holds, `CMD` reads 0 (decision D2), and nothing else changes. -/
def Obligations.HostReadsReturnTheRegister : Prop :=
  ∀ (s : State) (rest : List Input), s.busy = false →
    (∀ n v : Nat,
      (n, v) ∈ [(0x00, 0), (0x01, s.status.toNat), (0x02, s.cfgBudget), (0x03, s.cfgWide.toNat), (0x04, s.slave.toNat),
        (0x05, s.fc.toNat), (0x06, s.raddr.toNat), (0x07, s.qty.toNat), (0x08, s.desc.toNat), (0x09, s.attempts),
        (0x0A, (causeCode s.cause).toNat), (0x0B, s.excode.toNat), (0x0C, s.crcreg.toNat), (0x0D, s.txlen),
        (0x0E, s.rxlen), (0x0F, s.plen), (0x10, s.hlen), (0x11, s.dval)] →
      s.inbox = .read n :: rest → step s = .next { s with inbox := rest, rdata := v })

/-- 10_state.md R37: the host writes and reads single bytes of `WBUF`, `RXBUF` and `PBUF`: the byte written reads back, every other
byte of every buffer is as before, and no register changes. Reads at or beyond a length are log 7's. -/
def Obligations.BufferByteWrittenReadsBack : Prop :=
  ∀ (s : State) (b : Buf) (i v : Nat) (rest : List Input), s.busy = false →
    b = .wbuf ∨ b = .rxbuf ∨ b = .pbuf → i < bufCapacity s.params b → s.inbox = .writeBuf b i v :: rest →
    ∃ t, step s = .next t ∧ t.byteAt b i = BitVec.ofNat 8 v ∧
      (∀ b' j, b' ≠ b ∨ j ≠ i → t.byteAt b' j = s.byteAt b' j) ∧
      t = { s with inbox := rest, wbuf := t.wbuf, rxbuf := t.rxbuf, pbuf := t.pbuf } ∧
      (i < t.validBytes b → ∀ rest', step { t with inbox := .readBuf b i :: rest' } =
        .next { t with inbox := rest', rdata := v % 256 })

/-- 10_state.md R20, R37: while not `BUSY` a host read of a byte of any of the five buffers, below its capacity and its length,
returns the byte and changes nothing else; all of `WBUF`, which has no length register, counts as below its length (R35,
log 7). -/
def Obligations.BufferReadsReturnTheByte : Prop :=
  ∀ (s : State) (b : Buf) (i : Nat) (rest : List Input), s.busy = false → i < bufCapacity s.params b →
    (match b with
      | .wbuf => True
      | .txbuf => i < s.txlen
      | .rxbuf => i < s.rxlen
      | .pbuf => i < s.plen
      | .hbuf => i < s.hlen) →
    s.inbox = .readBuf b i :: rest → step s = .next { s with inbox := rest, rdata := (s.byteAt b i).toNat }

/-- 30_encoding.md R108: WAIT reads `STATUS` and stays while `BUSY` is 1, the executor stepping meanwhile, and is done when `BUSY` is
0 (log 24); 10_state.md R41: bytes that come unasked wait on the channel's receive side and change nothing of the block (log 5); the model's `pass` is no access at all: the executor takes
its step on the state less the `pass` (log 24). -/
def Obligations.WaitAndArrivals : Prop :=
  ∀ (s : State) (rest : List Input),
    (s.inbox = .wait :: rest →
      (s.busy = false → step s = .next { s with inbox := rest, rdata := s.status.toNat }) ∧
      (s.busy = true →
        step s = stepExecutor { s with rdata := s.status.toNat } ∧ ∀ t, step s = .next t → t.inbox = .wait :: rest)) ∧
    (∀ bytes, s.inbox = .arrive bytes :: rest → step s = .next { s with inbox := rest, line := s.line ++ bytes }) ∧
    (s.inbox = .pass :: rest →
      step s = stepExecutor { s with inbox := rest } ∧ (s.busy = false → step s = .next { s with inbox := rest }))

/-- 10_state.md R21: the places and codes of the fields of `STATUS` (decision D14). -/
def Obligations.StatusFieldPlaces : Prop :=
  ∀ s : State,
    s.status.getLsbD 0 = s.busy ∧
    s.status.extractLsb' 1 2 =
      (match s.xstate with | .idle => 0#2 | .attempt => 1#2 | .success => 2#2 | .exhausted => 3#2) ∧
    s.status.getLsbD 3 = s.vok ∧ s.status.getLsbD 4 = s.dvalid ∧
    s.status.extractLsb' 5 3 =
      (match s.err with | .ok => 0#3 | .illegalCmd => 1#3 | .illegalFc => 2#3 | .badQty => 3#3 | .badLen => 4#3)

/-! ## Reset -/

/-- The values of 10_state.md R43 (the spec's decisions D7, D8, D23) that the state after reset holds. -/
def Obligations.ResetValues : Prop :=
  State.reset.status = 0x00#8 ∧ State.reset.phase = .build ∧ State.reset.cfgBudget = 0 ∧
    State.reset.cfgWide = 0x169#9 ∧ State.reset.slave = 0x00#8 ∧ State.reset.fc = 0x00#8 ∧
    State.reset.raddr = 0x0000#16 ∧ State.reset.qty = 0x0000#16 ∧ State.reset.desc = 0#2 ∧
    State.reset.attempts = 0 ∧ State.reset.cause = .none ∧ State.reset.excode = 0#8 ∧
    State.reset.crcreg = 0xFFFF#16 ∧ State.reset.txlen = 0 ∧ State.reset.rxlen = 0 ∧ State.reset.plen = 0 ∧
    State.reset.hlen = 0 ∧ State.reset.dval = 0

/-- 70_reset_and_hazards.md R230, R232: a reset at any moment, a transaction included, gives every register its reset value and
empties no channel (decision D23); the buffers hold unspecified bytes again (logs 6 and 17). The draws of the channel's calls to
come stay (log 17); those of the dropped attempt's calls were used up by the calls (log 3). -/
def Obligations.ResetAbandonsEverything : Prop :=
  ∀ (s : State) (rest : List Input), s.inbox = .reset :: rest →
    step s = .next { State.reset with
      params := s.params, line := s.line, chan := s.chan, inbox := rest, rdata := s.rdata, events := s.events
      chanDraws := s.chanDraws, readDraws := s.readDraws, resets := s.resets + 1 }

/-- 70_reset_and_hazards.md R231, which the spec derives from R43 and R150: an idle block starts nothing by itself: with no outside event, a state in which `BUSY` is 0, that
after reset among them, stays as it is, for ever, so no frame is sent. -/
def Obligations.IdleBlockStaysIdle : Prop :=
  (∀ (s : State) (k : Nat), s.busy = false → s.inbox = [] → Sys2Proof.core.run k s = .next s) ∧
    State.reset.busy = false ∧ State.reset.inbox = []

/-! ## Parameters -/

/-- 00_scope.md R5: the parameters of the block are a field of the state that no step changes, so that every statement over all
states holds for every value of them (log 22); after reset they have the values the spec takes, which stand in the relations by
which R5 derives them and give every register the width of 10_state.md R20. -/
def Obligations.ParametersAreFixed : Prop :=
  (∀ s t : State, step s = .next t → t.params = s.params) ∧
    State.reset.params.budgetW = 8 ∧ State.reset.params.rxMax = 256 ∧ State.reset.params.wMax = 255 ∧
    State.reset.params.txMax = 262 ∧ State.reset.params.payMax = 251 ∧ State.reset.params.valBytes = 8 ∧
    State.reset.params.hexMax = 504 ∧ State.reset.params.Legal ∧
    ∀ r w, (r, w) ∈ [(Reg.cmd, 8), (Reg.status, 8), (Reg.cfgBudget, 8), (Reg.cfgWide, 9), (Reg.slave, 8), (Reg.fc, 8),
        (Reg.raddr, 16), (Reg.qty, 16), (Reg.desc, 2), (Reg.attempts, 8), (Reg.cause, 3), (Reg.excode, 8),
        (Reg.crcreg, 16), (Reg.txlen, 9), (Reg.rxlen, 9), (Reg.plen, 8), (Reg.hlen, 9), (Reg.dval, 64)] →
      regWidth State.reset.params r = w
end

