-- ==== Sys2Proof/Laws/Crc.lean ====
section
/-! SUPPORT. The laws of the CRC Engine's functions and of the wire's byte orders. -/

namespace Sys2Proof

theorem half_extract (v : Half) : half (v.extractLsb' 8 8) (v.extractLsb' 0 8) = v := by
  apply BitVec.eq_of_getLsbD_eq
  intro i hi
  simp only [half, BitVec.getLsbD_append, BitVec.getLsbD_extractLsb']
  rcases Nat.lt_or_ge i 8 with h | h
  · simp [h]
  · have h1 : ¬ i < 8 := by omega
    have h2 : i - 8 < 8 := by omega
    have h3 : 8 + (i - 8) = i := by omega
    simp [h1, h2, h3]

theorem extract_half_hi (hi lo : Byte) : (half hi lo).extractLsb' 8 8 = hi := by
  apply BitVec.eq_of_getLsbD_eq
  intro i h
  have h1 : ¬ 8 + i < 8 := by omega
  have h2 : 8 + i - 8 = i := by omega
  simp only [half, BitVec.getLsbD_extractLsb', BitVec.getLsbD_append, h, h1, h2, decide_true, Bool.true_and,
    if_false]

theorem extract_half_lo (hi lo : Byte) : (half hi lo).extractLsb' 0 8 = lo := by
  apply BitVec.eq_of_getLsbD_eq
  intro i h
  simp only [half, BitVec.getLsbD_extractLsb', BitVec.getLsbD_append, h, Nat.zero_add, decide_true, Bool.true_and,
    if_true]

theorem half_inj {a b c d : Byte} (h : half a b = half c d) : a = c ∧ b = d := by
  have h1 := congrArg (fun v : Half => v.extractLsb' 8 8) h
  have h2 := congrArg (fun v : Half => v.extractLsb' 0 8) h
  simp only [extract_half_hi, extract_half_lo] at h1 h2
  exact ⟨h1, h2⟩

@[simp] theorem crc16Bytes_length (s : List Byte) : (crc16Bytes s).length = 2 := rfl

@[simp] theorem sealFrame_length (s : List Byte) : (sealFrame s).length = s.length + 2 := by
  simp [sealFrame]

theorem dropLastN_append (s t : List Byte) : dropLastN t.length (s ++ t) = s := by
  simp [dropLastN]

theorem dropLastN_two (s : List Byte) (a b : Byte) : dropLastN 2 (s ++ [a, b]) = s := dropLastN_append s [a, b]

/-- `verify` of a body and two bytes: the CRC of the body against them, low byte first. -/
theorem verify_append_two (body : List Byte) (lo hi : Byte) :
    verify (body ++ [lo, hi]) = (crc16 body == half hi lo) := by
  have h : (body ++ [lo, hi]).drop ((body ++ [lo, hi]).length - 2) = [lo, hi] := by
    rw [List.length_append, List.length_cons, List.length_cons, List.length_nil, Nat.add_sub_cancel]
    simp
  rw [verify, h, dropLastN_two]

theorem verify_short {s : List Byte} (h : s.length < 2) : verify s = false := by
  match s, h with
  | [], _ => rfl
  | [_], _ => rfl

/-- What `verify` accepts is a sealed frame. -/
theorem verify_iff_sealed (s : List Byte) : verify s = true ↔ ∃ body, s = sealFrame body := by
  constructor
  · intro h
    have hl : 2 ≤ s.length := by
      by_contra hc
      rw [verify_short (by omega)] at h
      exact absurd h (by decide)
    obtain ⟨body, tail, rfl, ht⟩ : ∃ body tail, s = body ++ tail ∧ tail.length = 2 :=
      ⟨s.take (s.length - 2), s.drop (s.length - 2), (List.take_append_drop _ _).symm, by simp; omega⟩
    match tail, ht with
    | [lo, hi], _ =>
      rw [verify_append_two, beq_iff_eq] at h
      refine ⟨body, ?_⟩
      simp only [sealFrame, crc16Bytes, le2, h, extract_half_lo, extract_half_hi]
  · rintro ⟨body, rfl⟩
    have : sealFrame body = body ++ [(crc16 body).extractLsb' 0 8, (crc16 body).extractLsb' 8 8] := rfl
    rw [this, verify_append_two, half_extract, beq_self_eq_true]

theorem verify_sealFrame (s : List Byte) : verify (sealFrame s) = true := (verify_iff_sealed _).mpr ⟨s, rfl⟩

theorem dropLastN_sealFrame (s : List Byte) : dropLastN 2 (sealFrame s) = s := dropLastN_append s (crc16Bytes s)

/-! ## The table -/

/-- The turn of the table's loop is linear. -/
theorem crcShift_xor (a b : Half) : crcShift (a ^^^ b) = crcShift a ^^^ crcShift b := by
  have hs : (a ^^^ b) >>> 1 = a >>> 1 ^^^ b >>> 1 := BitVec.ushiftRight_xor_distrib a b 1
  simp only [crcShift, BitVec.getLsbD_xor, hs]
  cases a.getLsbD 0 <;> cases b.getLsbD 0 <;> simp only [Bool.xor_false, Bool.xor_true, Bool.not_true, Bool.not_false,
    Bool.false_eq_true, if_true, if_false]
  · rw [BitVec.xor_assoc]
  · rw [BitVec.xor_assoc, BitVec.xor_assoc, BitVec.xor_comm (0xA001#16)]
  · rw [← BitVec.xor_assoc, BitVec.xor_comm (a >>> 1 ^^^ 0xA001#16), ← BitVec.xor_assoc, BitVec.xor_comm (b >>> 1),
      BitVec.xor_assoc, BitVec.xor_assoc, BitVec.xor_self, BitVec.xor_zero]

/-- Eight turns of the table's loop. -/
def crcShift8 (c : Half) : Half :=
  crcShift (crcShift (crcShift (crcShift (crcShift (crcShift (crcShift (crcShift c)))))))

theorem crcShift8_xor (a b : Half) : crcShift8 (a ^^^ b) = crcShift8 a ^^^ crcShift8 b := by
  simp only [crcShift8, crcShift_xor]

/-- Eight turns shift a high byte down unchanged. -/
theorem crcShift8_high : ∀ h : Byte, crcShift8 (h ++ 0#8) = h.setWidth 16 := by
  decide

theorem split_half (r : Half) : r = (r.extractLsb' 8 8 ++ 0#8 : Half) ^^^ (r.setWidth 8).setWidth 16 := by
  apply BitVec.eq_of_getLsbD_eq
  intro i hi
  simp only [BitVec.getLsbD_xor, BitVec.getLsbD_append, BitVec.getLsbD_extractLsb', BitVec.getLsbD_setWidth]
  rcases Nat.lt_or_ge i 8 with h | h
  · simp [h, hi]
  · have h1 : ¬ i < 8 := by omega
    have h2 : i - 8 < 8 := by omega
    have h3 : 8 + (i - 8) = i := by omega
    simp [h1, h2, h3, hi]

theorem high_byte_shift (r : Half) : (r.extractLsb' 8 8).setWidth 16 = r >>> 8 := by
  apply BitVec.eq_of_getLsbD_eq
  intro i hi
  simp only [BitVec.getLsbD_setWidth, BitVec.getLsbD_extractLsb', BitVec.getLsbD_ushiftRight]
  rcases Nat.lt_or_ge i 8 with h | h
  · simp [h, hi]
  · have h1 : ¬ i < 8 := by omega
    simp [h1, hi]
    exact BitVec.getLsbD_of_ge _ _ (by omega)

theorem crcTable_eq (i : Byte) : crcTable i = crcShift8 (i.setWidth 16) := rfl

@[simp] theorem crcTable_zero : crcTable 0x00#8 = 0x0000#16 := by decide

/-- Eight turns are the shift by a byte and the table's entry for the low byte. -/
theorem crcShift8_eq (r : Half) : crcShift8 r = (r >>> 8) ^^^ crcTable (r.setWidth 8) := by
  conv => lhs; rw [split_half r]
  rw [crcShift8_xor, crcShift8_high, high_byte_shift, crcTable_eq]

/-- A step with the register's own low byte shifts the register down. -/
theorem crcStep_low (r : Half) : crcStep r (r.extractLsb' 0 8) = r >>> 8 := by
  have h : (r ^^^ (r.extractLsb' 0 8).setWidth 16).setWidth 8 = 0x00#8 := by
    apply BitVec.eq_of_getLsbD_eq
    intro i hi
    simp [hi, show i < 16 by omega]
  rw [crcStep, h, crcTable_zero, BitVec.xor_zero]

theorem crc16_append (s t : List Byte) : crc16 (s ++ t) = t.foldl crcStep (crc16 s) := List.foldl_append

end Sys2Proof
end

