-- ==== Sys2Proof/Laws/Codec.lean ====
section
/-! SUPPORT. The laws of the decoders and the encoder: what a frame, a response and the operand registers decode to. -/

namespace Sys2Proof

open Machine

theorem isReadFc_iff (fc : Byte) : isReadFc fc = true ↔ fc = 0x03#8 ∨ fc = 0x04#8 := by simp [isReadFc]

theorem isWriteFc_iff (fc : Byte) : isWriteFc fc = true ↔ fc = 0x06#8 ∨ fc = 0x10#8 := by simp [isWriteFc]

theorem isWide_iff (slave fc : Byte) (p : Profile) :
    isWide slave fc p = true ↔ (fc = 0x03#8 ∨ fc = 0x04#8) ∧ p.getLsbD 8 = true ∧ slave = p.extractLsb' 0 8 := by
  simp only [isWide, Bool.and_eq_true, isReadFc_iff, wideEn, wideAddr, beq_iff_eq, and_assoc]

/-- A header, a body and their CRC decode by their body. -/
theorem decodeFrame_seal (p : Profile) (slave fc ah al : Byte) (body : List Byte) :
    decodeFrame p (sealFrame (slave :: fc :: ah :: al :: body)) = decodeBody p slave fc (half ah al) body := by
  have hs : sealFrame (slave :: fc :: ah :: al :: body) =
      slave :: fc :: ah :: al :: (body ++ crc16Bytes (slave :: fc :: ah :: al :: body)) := rfl
  have hv := verify_sealFrame (slave :: fc :: ah :: al :: body)
  rw [hs] at hv ⊢
  have hl : ¬ (body ++ crc16Bytes (slave :: fc :: ah :: al :: body)).length < 2 := by simp
  have hd : dropLastN 2 (body ++ crc16Bytes (slave :: fc :: ah :: al :: body)) = body := dropLastN_append _ _
  rw [decodeFrame, if_neg hl, if_pos hv, hd]

/-- What decodes as a request frame is a sealed header and body. -/
theorem decodeFrame_ok {p : Profile} {frame : List Byte} {i : Instr} (h : decodeFrame p frame = .ok i) :
    ∃ slave fc ah al body, frame = sealFrame (slave :: fc :: ah :: al :: body) ∧
      decodeBody p slave fc (half ah al) body = .ok i := by
  unfold decodeFrame at h
  split at h
  · rename_i slave fc ah al rest
    split at h
    · exact absurd h (by simp)
    · rename_i hl
      split at h
      · rename_i hv
        obtain ⟨whole, hw⟩ := (verify_iff_sealed _).mp hv
        have hwl : 4 ≤ whole.length := by
          have := congrArg List.length hw
          simp at this
          omega
        match whole, hwl with
        | a :: b :: c :: d :: body, _ =>
          have he : slave :: fc :: ah :: al :: rest =
              a :: b :: c :: d :: (body ++ crc16Bytes (a :: b :: c :: d :: body)) := hw
          injection he with h1 he; injection he with h2 he; injection he with h3 he; injection he with h4 he
          subst h1 h2 h3 h4
          refine ⟨slave, fc, ah, al, body, hw, ?_⟩
          rw [he, show dropLastN 2 (body ++ crc16Bytes (slave :: fc :: ah :: al :: body)) = body from
            dropLastN_append _ _] at h
          exact h
      · exact absurd h (by simp)
  · exact absurd h (by simp)

theorem narrowRead_ok {fc slave q : Byte} {raddr : Half} {i : Instr} (h : narrowRead fc slave raddr q = .ok i) :
    (fc = 0x03#8 ∧ i = .rdhN slave raddr q) ∨ (fc = 0x04#8 ∧ i = .rdiN slave raddr q) := by
  unfold narrowRead at h
  split at h
  · exact .inl ⟨‹_›, by simpa using h.symm⟩
  · split at h
    · exact .inr ⟨‹_›, by simpa using h.symm⟩
    · exact absurd h (by simp)

theorem wideRead_ok {fc slave : Byte} {raddr q : Half} {i : Instr} (h : wideRead fc slave raddr q = .ok i) :
    (fc = 0x03#8 ∧ i = .rdhW slave raddr q) ∨ (fc = 0x04#8 ∧ i = .rdiW slave raddr q) := by
  unfold wideRead at h
  split at h
  · exact .inl ⟨‹_›, by simpa using h.symm⟩
  · split at h
    · exact .inr ⟨‹_›, by simpa using h.symm⟩
    · exact absurd h (by simp)

/-- The bytes of what a header and body decode to. -/
theorem encode_of_decodeBody {p : Profile} {slave fc ah al : Byte} {body : List Byte} {i : Instr}
    (h : decodeBody p slave fc (half ah al) body = .ok i) :
    encode i = sealFrame (slave :: fc :: ah :: al :: body) := by
  unfold decodeBody at h
  split at h
  · split at h
    · split at h
      · rcases wideRead_ok h with ⟨rfl, rfl⟩ | ⟨rfl, rfl⟩ <;>
          simp only [encode, extract_half_hi, extract_half_lo]
      · exact absurd h (by simp)
    · split at h
      · rcases narrowRead_ok h with ⟨rfl, rfl⟩ | ⟨rfl, rfl⟩ <;>
          simp only [encode, extract_half_hi, extract_half_lo]
      · exact absurd h (by simp)
  · split at h
    · rename_i hfc
      subst hfc
      split at h
      · simp only [Except.ok.injEq] at h
        subst h
        simp only [encode, extract_half_hi, extract_half_lo, List.cons_append, List.nil_append]
      · exact absurd h (by simp)
    · split at h
      · rename_i hfc
        subst hfc
        split at h
        · split at h
          · rename_i q payload hq
            simp only [Except.ok.injEq] at h
            subst h
            simp only [encode, extract_half_hi, extract_half_lo, List.cons_append, List.nil_append, hq,
              BitVec.ofNat_toNat, BitVec.setWidth_eq]
          · exact absurd h (by simp)
        · exact absurd h (by simp)
      · exact absurd h (by simp)

/-- The bytes of a response's class are the response. -/
theorem encode_classify (fc : Byte) (raw : List Byte) : encode (classify fc raw) = raw := by
  unfold classify
  split
  · rename_i addr f code tail
    split
    · split
      · rename_i h; rw [encode, h.2]
      · split
        · rename_i h; rw [encode, h.2]
        · split
          · rename_i h; rw [encode, h.2]
          · split
            · rename_i h; rw [encode, h.2]
            · rfl
    · rfl
  · rfl

/-- The bytes of a command are its code. -/
theorem encode_decodeCommand {c : Byte} {i : Instr} (h : decodeCommand c = .ok i) : encode i = [c] := by
  unfold decodeCommand at h
  repeat' split at h
  all_goals first
    | (simp only [Except.ok.injEq] at h; subst h; subst_vars; rfl)
    | exact absurd h (by simp)

/-- The bytes of a mode are the value of `DESC`. -/
theorem encode_decodeMode : ∀ d : BitVec 2, encode (decodeMode d) = [d.setWidth 8] := by decide

/-! ## The operand registers -/

/-- Whether `check` passes is whether the operand registers select a request row. -/
theorem checkOperands_none_iff (o : RequestOperands) :
    checkOperands o.fc o.qty o.slave o.profile = none ↔ ∃ i, selectRequest o = .ok i := by
  obtain ⟨slave, fc, raddr, qty, payload, p⟩ := o
  simp only [checkOperands, selectRequest]
  cases hr : isReadFc fc
  · cases hw : isWriteFc fc
    · simp
    · by_cases hq : 255 < qty.toNat
      · simp [hq]
      · by_cases h6 : fc = 0x06#8
        · simp [hq, h6]
        · simp [hq, h6]
  · have hfc := (isReadFc_iff fc).mp hr
    have hw : isWriteFc fc = false := by rcases hfc with rfl | rfl <;> rfl
    cases hwide : isWide slave fc p
    · by_cases hq : 255 < qty.toNat
      · simp [hq, hw]
      · rcases hfc with rfl | rfl <;> simp [hq, hw, narrowRead]
    · rcases hfc with rfl | rfl <;> simp [hw, wideRead]

/-- The row the operand registers select has the frame `encode_request` makes of them. -/
theorem encodeRequest_of_select {o : RequestOperands} {i : Instr} (h : selectRequest o = .ok i)
    (hp : o.payload.length = min o.qty.toNat 255) : encodeRequest o = .ok (encode i) := by
  have hc := (checkOperands_none_iff o).mpr ⟨i, h⟩
  obtain ⟨slave, fc, raddr, qty, payload, p⟩ := o
  simp only [encodeRequest, hc]
  simp only [selectRequest] at h
  simp only at hp
  cases hr : isReadFc fc
  · cases hw : isWriteFc fc
    · simp [hr, hw] at h
    · by_cases hq : 255 < qty.toNat
      · simp [hr, hw, hq] at h
      · have hq' : min qty.toNat 255 = qty.toNat := by omega
        have ht : payload.take qty.toNat = payload := List.take_of_length_le (by omega)
        have hl : BitVec.ofNat 8 payload.length = qty.setWidth 8 := by
          rw [hp, hq']
          apply BitVec.eq_of_toNat_eq
          simp
        by_cases h6 : fc = 0x06#8
        · subst h6
          simp only [hr, hw, hq, ht, if_true, if_false, Bool.false_eq_true, Except.ok.injEq] at h
          subst h
          simp [encode, ht, be2]
        · have h10 : fc = 0x10#8 := ((isWriteFc_iff fc).mp hw).resolve_left h6
          simp only [hr, hw, hq, h6, ht, if_true, if_false, Bool.false_eq_true, Except.ok.injEq] at h
          subst h
          simp [h10, encode, ht, be2, hl]
  · cases hwide : isWide slave fc p
    · by_cases hq : 255 < qty.toNat
      · simp [hr, hwide, hq] at h
      · simp only [hr, hwide, hq, if_true, if_false, Bool.false_eq_true] at h
        rcases narrowRead_ok h with ⟨rfl, rfl⟩ | ⟨rfl, rfl⟩ <;> simp [encode, be2]
    · simp only [hr, hwide, if_true] at h
      rcases wideRead_ok h with ⟨rfl, rfl⟩ | ⟨rfl, rfl⟩ <;> simp [encode, be2]

/-- Where the operand registers select no row `encode_request` refuses. -/
theorem encodeRequest_error_iff (o : RequestOperands) (e : ErrCode) :
    encodeRequest o = .error e ↔ checkOperands o.fc o.qty o.slave o.profile = some e := by
  unfold encodeRequest
  split
  · rename_i e' h
    simp [h]
  · rename_i h
    simp [h]

/-- The frame of the operand registers is at most 262 bytes long, `P_TX_MAX`. -/
theorem encodeRequest_length {o : RequestOperands} {frame : List Byte} (h : encodeRequest o = .ok frame)
    (hp : o.payload.length ≤ 255) : frame.length ≤ 262 := by
  unfold encodeRequest at h
  split at h
  · exact absurd h (by simp)
  · simp only [Except.ok.injEq] at h
    subst h
    split
    · split <;> simp [be2]
    · split <;> simp [be2] <;> omega

end Sys2Proof
end

