-- ==== Sys2Proof/Laws/State.lean ====
section
/-! SUPPORT. Beside State: one lemma per field per named update, so that no later proof unfolds a record update. -/

namespace Sys2Proof.Machine

variable (s : State)

/-! ## `State.storeTx` -/

@[simp] theorem State.storeTx_params (x : List Byte) : (s.storeTx x).params = s.params := rfl
@[simp] theorem State.storeTx_busy (x : List Byte) : (s.storeTx x).busy = s.busy := rfl
@[simp] theorem State.storeTx_xstate (x : List Byte) : (s.storeTx x).xstate = s.xstate := rfl
@[simp] theorem State.storeTx_vok (x : List Byte) : (s.storeTx x).vok = s.vok := rfl
@[simp] theorem State.storeTx_dvalid (x : List Byte) : (s.storeTx x).dvalid = s.dvalid := rfl
@[simp] theorem State.storeTx_err (x : List Byte) : (s.storeTx x).err = s.err := rfl
@[simp] theorem State.storeTx_phase (x : List Byte) : (s.storeTx x).phase = s.phase := rfl
@[simp] theorem State.storeTx_cfgBudget (x : List Byte) : (s.storeTx x).cfgBudget = s.cfgBudget := rfl
@[simp] theorem State.storeTx_cfgWide (x : List Byte) : (s.storeTx x).cfgWide = s.cfgWide := rfl
@[simp] theorem State.storeTx_slave (x : List Byte) : (s.storeTx x).slave = s.slave := rfl
@[simp] theorem State.storeTx_fc (x : List Byte) : (s.storeTx x).fc = s.fc := rfl
@[simp] theorem State.storeTx_raddr (x : List Byte) : (s.storeTx x).raddr = s.raddr := rfl
@[simp] theorem State.storeTx_qty (x : List Byte) : (s.storeTx x).qty = s.qty := rfl
@[simp] theorem State.storeTx_desc (x : List Byte) : (s.storeTx x).desc = s.desc := rfl
@[simp] theorem State.storeTx_attempts (x : List Byte) : (s.storeTx x).attempts = s.attempts := rfl
@[simp] theorem State.storeTx_cause (x : List Byte) : (s.storeTx x).cause = s.cause := rfl
@[simp] theorem State.storeTx_excode (x : List Byte) : (s.storeTx x).excode = s.excode := rfl
@[simp] theorem State.storeTx_crcreg (x : List Byte) : (s.storeTx x).crcreg = s.crcreg := rfl
@[simp] theorem State.storeTx_txlen (x : List Byte) : (s.storeTx x).txlen = x.length := rfl
@[simp] theorem State.storeTx_rxlen (x : List Byte) : (s.storeTx x).rxlen = s.rxlen := rfl
@[simp] theorem State.storeTx_plen (x : List Byte) : (s.storeTx x).plen = s.plen := rfl
@[simp] theorem State.storeTx_hlen (x : List Byte) : (s.storeTx x).hlen = s.hlen := rfl
@[simp] theorem State.storeTx_dval (x : List Byte) : (s.storeTx x).dval = s.dval := rfl
@[simp] theorem State.storeTx_wbuf (x : List Byte) : (s.storeTx x).wbuf = s.wbuf := rfl
@[simp] theorem State.storeTx_txbuf (x : List Byte) : (s.storeTx x).txbuf = Memory.store s.txbuf 0 x := rfl
@[simp] theorem State.storeTx_rxbuf (x : List Byte) : (s.storeTx x).rxbuf = s.rxbuf := rfl
@[simp] theorem State.storeTx_pbuf (x : List Byte) : (s.storeTx x).pbuf = s.pbuf := rfl
@[simp] theorem State.storeTx_hbuf (x : List Byte) : (s.storeTx x).hbuf = s.hbuf := rfl
@[simp] theorem State.storeTx_line (x : List Byte) : (s.storeTx x).line = s.line := rfl
@[simp] theorem State.storeTx_chan (x : List Byte) : (s.storeTx x).chan = s.chan := rfl
@[simp] theorem State.storeTx_inbox (x : List Byte) : (s.storeTx x).inbox = s.inbox := rfl
@[simp] theorem State.storeTx_rdata (x : List Byte) : (s.storeTx x).rdata = s.rdata := rfl
@[simp] theorem State.storeTx_events (x : List Byte) : (s.storeTx x).events = s.events := rfl
@[simp] theorem State.storeTx_chanDraws (x : List Byte) : (s.storeTx x).chanDraws = s.chanDraws := rfl
@[simp] theorem State.storeTx_readDraws (x : List Byte) : (s.storeTx x).readDraws = s.readDraws := rfl
@[simp] theorem State.storeTx_resets (x : List Byte) : (s.storeTx x).resets = s.resets := rfl

/-! ## `State.storeRx` -/

@[simp] theorem State.storeRx_params (x : List Byte) : (s.storeRx x).params = s.params := rfl
@[simp] theorem State.storeRx_busy (x : List Byte) : (s.storeRx x).busy = s.busy := rfl
@[simp] theorem State.storeRx_xstate (x : List Byte) : (s.storeRx x).xstate = s.xstate := rfl
@[simp] theorem State.storeRx_vok (x : List Byte) : (s.storeRx x).vok = s.vok := rfl
@[simp] theorem State.storeRx_dvalid (x : List Byte) : (s.storeRx x).dvalid = s.dvalid := rfl
@[simp] theorem State.storeRx_err (x : List Byte) : (s.storeRx x).err = s.err := rfl
@[simp] theorem State.storeRx_phase (x : List Byte) : (s.storeRx x).phase = s.phase := rfl
@[simp] theorem State.storeRx_cfgBudget (x : List Byte) : (s.storeRx x).cfgBudget = s.cfgBudget := rfl
@[simp] theorem State.storeRx_cfgWide (x : List Byte) : (s.storeRx x).cfgWide = s.cfgWide := rfl
@[simp] theorem State.storeRx_slave (x : List Byte) : (s.storeRx x).slave = s.slave := rfl
@[simp] theorem State.storeRx_fc (x : List Byte) : (s.storeRx x).fc = s.fc := rfl
@[simp] theorem State.storeRx_raddr (x : List Byte) : (s.storeRx x).raddr = s.raddr := rfl
@[simp] theorem State.storeRx_qty (x : List Byte) : (s.storeRx x).qty = s.qty := rfl
@[simp] theorem State.storeRx_desc (x : List Byte) : (s.storeRx x).desc = s.desc := rfl
@[simp] theorem State.storeRx_attempts (x : List Byte) : (s.storeRx x).attempts = s.attempts := rfl
@[simp] theorem State.storeRx_cause (x : List Byte) : (s.storeRx x).cause = s.cause := rfl
@[simp] theorem State.storeRx_excode (x : List Byte) : (s.storeRx x).excode = s.excode := rfl
@[simp] theorem State.storeRx_crcreg (x : List Byte) : (s.storeRx x).crcreg = s.crcreg := rfl
@[simp] theorem State.storeRx_txlen (x : List Byte) : (s.storeRx x).txlen = s.txlen := rfl
@[simp] theorem State.storeRx_rxlen (x : List Byte) : (s.storeRx x).rxlen = x.length := rfl
@[simp] theorem State.storeRx_plen (x : List Byte) : (s.storeRx x).plen = s.plen := rfl
@[simp] theorem State.storeRx_hlen (x : List Byte) : (s.storeRx x).hlen = s.hlen := rfl
@[simp] theorem State.storeRx_dval (x : List Byte) : (s.storeRx x).dval = s.dval := rfl
@[simp] theorem State.storeRx_wbuf (x : List Byte) : (s.storeRx x).wbuf = s.wbuf := rfl
@[simp] theorem State.storeRx_txbuf (x : List Byte) : (s.storeRx x).txbuf = s.txbuf := rfl
@[simp] theorem State.storeRx_rxbuf (x : List Byte) : (s.storeRx x).rxbuf = Memory.store s.rxbuf 0 x := rfl
@[simp] theorem State.storeRx_pbuf (x : List Byte) : (s.storeRx x).pbuf = s.pbuf := rfl
@[simp] theorem State.storeRx_hbuf (x : List Byte) : (s.storeRx x).hbuf = s.hbuf := rfl
@[simp] theorem State.storeRx_line (x : List Byte) : (s.storeRx x).line = s.line := rfl
@[simp] theorem State.storeRx_chan (x : List Byte) : (s.storeRx x).chan = s.chan := rfl
@[simp] theorem State.storeRx_inbox (x : List Byte) : (s.storeRx x).inbox = s.inbox := rfl
@[simp] theorem State.storeRx_rdata (x : List Byte) : (s.storeRx x).rdata = s.rdata := rfl
@[simp] theorem State.storeRx_events (x : List Byte) : (s.storeRx x).events = s.events := rfl
@[simp] theorem State.storeRx_chanDraws (x : List Byte) : (s.storeRx x).chanDraws = s.chanDraws := rfl
@[simp] theorem State.storeRx_readDraws (x : List Byte) : (s.storeRx x).readDraws = s.readDraws := rfl
@[simp] theorem State.storeRx_resets (x : List Byte) : (s.storeRx x).resets = s.resets := rfl

/-! ## `State.storePayload` -/

@[simp] theorem State.storePayload_params (x : List Byte) : (s.storePayload x).params = s.params := rfl
@[simp] theorem State.storePayload_busy (x : List Byte) : (s.storePayload x).busy = s.busy := rfl
@[simp] theorem State.storePayload_xstate (x : List Byte) : (s.storePayload x).xstate = s.xstate := rfl
@[simp] theorem State.storePayload_vok (x : List Byte) : (s.storePayload x).vok = s.vok := rfl
@[simp] theorem State.storePayload_dvalid (x : List Byte) : (s.storePayload x).dvalid = s.dvalid := rfl
@[simp] theorem State.storePayload_err (x : List Byte) : (s.storePayload x).err = s.err := rfl
@[simp] theorem State.storePayload_phase (x : List Byte) : (s.storePayload x).phase = s.phase := rfl
@[simp] theorem State.storePayload_cfgBudget (x : List Byte) : (s.storePayload x).cfgBudget = s.cfgBudget := rfl
@[simp] theorem State.storePayload_cfgWide (x : List Byte) : (s.storePayload x).cfgWide = s.cfgWide := rfl
@[simp] theorem State.storePayload_slave (x : List Byte) : (s.storePayload x).slave = s.slave := rfl
@[simp] theorem State.storePayload_fc (x : List Byte) : (s.storePayload x).fc = s.fc := rfl
@[simp] theorem State.storePayload_raddr (x : List Byte) : (s.storePayload x).raddr = s.raddr := rfl
@[simp] theorem State.storePayload_qty (x : List Byte) : (s.storePayload x).qty = s.qty := rfl
@[simp] theorem State.storePayload_desc (x : List Byte) : (s.storePayload x).desc = s.desc := rfl
@[simp] theorem State.storePayload_attempts (x : List Byte) : (s.storePayload x).attempts = s.attempts := rfl
@[simp] theorem State.storePayload_cause (x : List Byte) : (s.storePayload x).cause = s.cause := rfl
@[simp] theorem State.storePayload_excode (x : List Byte) : (s.storePayload x).excode = s.excode := rfl
@[simp] theorem State.storePayload_crcreg (x : List Byte) : (s.storePayload x).crcreg = s.crcreg := rfl
@[simp] theorem State.storePayload_txlen (x : List Byte) : (s.storePayload x).txlen = s.txlen := rfl
@[simp] theorem State.storePayload_rxlen (x : List Byte) : (s.storePayload x).rxlen = s.rxlen := rfl
@[simp] theorem State.storePayload_plen (x : List Byte) : (s.storePayload x).plen = x.length := rfl
@[simp] theorem State.storePayload_hlen (x : List Byte) : (s.storePayload x).hlen = s.hlen := rfl
@[simp] theorem State.storePayload_dval (x : List Byte) : (s.storePayload x).dval = s.dval := rfl
@[simp] theorem State.storePayload_wbuf (x : List Byte) : (s.storePayload x).wbuf = s.wbuf := rfl
@[simp] theorem State.storePayload_txbuf (x : List Byte) : (s.storePayload x).txbuf = s.txbuf := rfl
@[simp] theorem State.storePayload_rxbuf (x : List Byte) : (s.storePayload x).rxbuf = s.rxbuf := rfl
@[simp] theorem State.storePayload_pbuf (x : List Byte) : (s.storePayload x).pbuf = Memory.store s.pbuf 0 x := rfl
@[simp] theorem State.storePayload_hbuf (x : List Byte) : (s.storePayload x).hbuf = s.hbuf := rfl
@[simp] theorem State.storePayload_line (x : List Byte) : (s.storePayload x).line = s.line := rfl
@[simp] theorem State.storePayload_chan (x : List Byte) : (s.storePayload x).chan = s.chan := rfl
@[simp] theorem State.storePayload_inbox (x : List Byte) : (s.storePayload x).inbox = s.inbox := rfl
@[simp] theorem State.storePayload_rdata (x : List Byte) : (s.storePayload x).rdata = s.rdata := rfl
@[simp] theorem State.storePayload_events (x : List Byte) : (s.storePayload x).events = s.events := rfl
@[simp] theorem State.storePayload_chanDraws (x : List Byte) : (s.storePayload x).chanDraws = s.chanDraws := rfl
@[simp] theorem State.storePayload_readDraws (x : List Byte) : (s.storePayload x).readDraws = s.readDraws := rfl
@[simp] theorem State.storePayload_resets (x : List Byte) : (s.storePayload x).resets = s.resets := rfl

/-! ## `State.storeHex` -/

@[simp] theorem State.storeHex_params (x : List Byte) : (s.storeHex x).params = s.params := rfl
@[simp] theorem State.storeHex_busy (x : List Byte) : (s.storeHex x).busy = s.busy := rfl
@[simp] theorem State.storeHex_xstate (x : List Byte) : (s.storeHex x).xstate = s.xstate := rfl
@[simp] theorem State.storeHex_vok (x : List Byte) : (s.storeHex x).vok = s.vok := rfl
@[simp] theorem State.storeHex_dvalid (x : List Byte) : (s.storeHex x).dvalid = s.dvalid := rfl
@[simp] theorem State.storeHex_err (x : List Byte) : (s.storeHex x).err = s.err := rfl
@[simp] theorem State.storeHex_phase (x : List Byte) : (s.storeHex x).phase = s.phase := rfl
@[simp] theorem State.storeHex_cfgBudget (x : List Byte) : (s.storeHex x).cfgBudget = s.cfgBudget := rfl
@[simp] theorem State.storeHex_cfgWide (x : List Byte) : (s.storeHex x).cfgWide = s.cfgWide := rfl
@[simp] theorem State.storeHex_slave (x : List Byte) : (s.storeHex x).slave = s.slave := rfl
@[simp] theorem State.storeHex_fc (x : List Byte) : (s.storeHex x).fc = s.fc := rfl
@[simp] theorem State.storeHex_raddr (x : List Byte) : (s.storeHex x).raddr = s.raddr := rfl
@[simp] theorem State.storeHex_qty (x : List Byte) : (s.storeHex x).qty = s.qty := rfl
@[simp] theorem State.storeHex_desc (x : List Byte) : (s.storeHex x).desc = s.desc := rfl
@[simp] theorem State.storeHex_attempts (x : List Byte) : (s.storeHex x).attempts = s.attempts := rfl
@[simp] theorem State.storeHex_cause (x : List Byte) : (s.storeHex x).cause = s.cause := rfl
@[simp] theorem State.storeHex_excode (x : List Byte) : (s.storeHex x).excode = s.excode := rfl
@[simp] theorem State.storeHex_crcreg (x : List Byte) : (s.storeHex x).crcreg = s.crcreg := rfl
@[simp] theorem State.storeHex_txlen (x : List Byte) : (s.storeHex x).txlen = s.txlen := rfl
@[simp] theorem State.storeHex_rxlen (x : List Byte) : (s.storeHex x).rxlen = s.rxlen := rfl
@[simp] theorem State.storeHex_plen (x : List Byte) : (s.storeHex x).plen = s.plen := rfl
@[simp] theorem State.storeHex_hlen (x : List Byte) : (s.storeHex x).hlen = x.length := rfl
@[simp] theorem State.storeHex_dval (x : List Byte) : (s.storeHex x).dval = s.dval := rfl
@[simp] theorem State.storeHex_wbuf (x : List Byte) : (s.storeHex x).wbuf = s.wbuf := rfl
@[simp] theorem State.storeHex_txbuf (x : List Byte) : (s.storeHex x).txbuf = s.txbuf := rfl
@[simp] theorem State.storeHex_rxbuf (x : List Byte) : (s.storeHex x).rxbuf = s.rxbuf := rfl
@[simp] theorem State.storeHex_pbuf (x : List Byte) : (s.storeHex x).pbuf = s.pbuf := rfl
@[simp] theorem State.storeHex_hbuf (x : List Byte) : (s.storeHex x).hbuf = Memory.store s.hbuf 0 x := rfl
@[simp] theorem State.storeHex_line (x : List Byte) : (s.storeHex x).line = s.line := rfl
@[simp] theorem State.storeHex_chan (x : List Byte) : (s.storeHex x).chan = s.chan := rfl
@[simp] theorem State.storeHex_inbox (x : List Byte) : (s.storeHex x).inbox = s.inbox := rfl
@[simp] theorem State.storeHex_rdata (x : List Byte) : (s.storeHex x).rdata = s.rdata := rfl
@[simp] theorem State.storeHex_events (x : List Byte) : (s.storeHex x).events = s.events := rfl
@[simp] theorem State.storeHex_chanDraws (x : List Byte) : (s.storeHex x).chanDraws = s.chanDraws := rfl
@[simp] theorem State.storeHex_readDraws (x : List Byte) : (s.storeHex x).readDraws = s.readDraws := rfl
@[simp] theorem State.storeHex_resets (x : List Byte) : (s.storeHex x).resets = s.resets := rfl

/-! ## `State.refuse` -/

@[simp] theorem State.refuse_params (e : ErrCode) : (s.refuse e).params = s.params := rfl
@[simp] theorem State.refuse_busy (e : ErrCode) : (s.refuse e).busy = s.busy := rfl
@[simp] theorem State.refuse_xstate (e : ErrCode) : (s.refuse e).xstate = s.xstate := rfl
@[simp] theorem State.refuse_vok (e : ErrCode) : (s.refuse e).vok = s.vok := rfl
@[simp] theorem State.refuse_dvalid (e : ErrCode) : (s.refuse e).dvalid = s.dvalid := rfl
@[simp] theorem State.refuse_err (e : ErrCode) : (s.refuse e).err = e := rfl
@[simp] theorem State.refuse_phase (e : ErrCode) : (s.refuse e).phase = s.phase := rfl
@[simp] theorem State.refuse_cfgBudget (e : ErrCode) : (s.refuse e).cfgBudget = s.cfgBudget := rfl
@[simp] theorem State.refuse_cfgWide (e : ErrCode) : (s.refuse e).cfgWide = s.cfgWide := rfl
@[simp] theorem State.refuse_slave (e : ErrCode) : (s.refuse e).slave = s.slave := rfl
@[simp] theorem State.refuse_fc (e : ErrCode) : (s.refuse e).fc = s.fc := rfl
@[simp] theorem State.refuse_raddr (e : ErrCode) : (s.refuse e).raddr = s.raddr := rfl
@[simp] theorem State.refuse_qty (e : ErrCode) : (s.refuse e).qty = s.qty := rfl
@[simp] theorem State.refuse_desc (e : ErrCode) : (s.refuse e).desc = s.desc := rfl
@[simp] theorem State.refuse_attempts (e : ErrCode) : (s.refuse e).attempts = s.attempts := rfl
@[simp] theorem State.refuse_cause (e : ErrCode) : (s.refuse e).cause = s.cause := rfl
@[simp] theorem State.refuse_excode (e : ErrCode) : (s.refuse e).excode = s.excode := rfl
@[simp] theorem State.refuse_crcreg (e : ErrCode) : (s.refuse e).crcreg = s.crcreg := rfl
@[simp] theorem State.refuse_txlen (e : ErrCode) : (s.refuse e).txlen = s.txlen := rfl
@[simp] theorem State.refuse_rxlen (e : ErrCode) : (s.refuse e).rxlen = s.rxlen := rfl
@[simp] theorem State.refuse_plen (e : ErrCode) : (s.refuse e).plen = s.plen := rfl
@[simp] theorem State.refuse_hlen (e : ErrCode) : (s.refuse e).hlen = s.hlen := rfl
@[simp] theorem State.refuse_dval (e : ErrCode) : (s.refuse e).dval = s.dval := rfl
@[simp] theorem State.refuse_wbuf (e : ErrCode) : (s.refuse e).wbuf = s.wbuf := rfl
@[simp] theorem State.refuse_txbuf (e : ErrCode) : (s.refuse e).txbuf = s.txbuf := rfl
@[simp] theorem State.refuse_rxbuf (e : ErrCode) : (s.refuse e).rxbuf = s.rxbuf := rfl
@[simp] theorem State.refuse_pbuf (e : ErrCode) : (s.refuse e).pbuf = s.pbuf := rfl
@[simp] theorem State.refuse_hbuf (e : ErrCode) : (s.refuse e).hbuf = s.hbuf := rfl
@[simp] theorem State.refuse_line (e : ErrCode) : (s.refuse e).line = s.line := rfl
@[simp] theorem State.refuse_chan (e : ErrCode) : (s.refuse e).chan = s.chan := rfl
@[simp] theorem State.refuse_inbox (e : ErrCode) : (s.refuse e).inbox = s.inbox := rfl
@[simp] theorem State.refuse_rdata (e : ErrCode) : (s.refuse e).rdata = s.rdata := rfl
@[simp] theorem State.refuse_events (e : ErrCode) : (s.refuse e).events = s.events := rfl
@[simp] theorem State.refuse_chanDraws (e : ErrCode) : (s.refuse e).chanDraws = s.chanDraws := rfl
@[simp] theorem State.refuse_readDraws (e : ErrCode) : (s.refuse e).readDraws = s.readDraws := rfl
@[simp] theorem State.refuse_resets (e : ErrCode) : (s.refuse e).resets = s.resets := rfl

/-! ## `State.log` -/

@[simp] theorem State.log_params (e : Event) : (s.log e).params = s.params := rfl
@[simp] theorem State.log_busy (e : Event) : (s.log e).busy = s.busy := rfl
@[simp] theorem State.log_xstate (e : Event) : (s.log e).xstate = s.xstate := rfl
@[simp] theorem State.log_vok (e : Event) : (s.log e).vok = s.vok := rfl
@[simp] theorem State.log_dvalid (e : Event) : (s.log e).dvalid = s.dvalid := rfl
@[simp] theorem State.log_err (e : Event) : (s.log e).err = s.err := rfl
@[simp] theorem State.log_phase (e : Event) : (s.log e).phase = s.phase := rfl
@[simp] theorem State.log_cfgBudget (e : Event) : (s.log e).cfgBudget = s.cfgBudget := rfl
@[simp] theorem State.log_cfgWide (e : Event) : (s.log e).cfgWide = s.cfgWide := rfl
@[simp] theorem State.log_slave (e : Event) : (s.log e).slave = s.slave := rfl
@[simp] theorem State.log_fc (e : Event) : (s.log e).fc = s.fc := rfl
@[simp] theorem State.log_raddr (e : Event) : (s.log e).raddr = s.raddr := rfl
@[simp] theorem State.log_qty (e : Event) : (s.log e).qty = s.qty := rfl
@[simp] theorem State.log_desc (e : Event) : (s.log e).desc = s.desc := rfl
@[simp] theorem State.log_attempts (e : Event) : (s.log e).attempts = s.attempts := rfl
@[simp] theorem State.log_cause (e : Event) : (s.log e).cause = s.cause := rfl
@[simp] theorem State.log_excode (e : Event) : (s.log e).excode = s.excode := rfl
@[simp] theorem State.log_crcreg (e : Event) : (s.log e).crcreg = s.crcreg := rfl
@[simp] theorem State.log_txlen (e : Event) : (s.log e).txlen = s.txlen := rfl
@[simp] theorem State.log_rxlen (e : Event) : (s.log e).rxlen = s.rxlen := rfl
@[simp] theorem State.log_plen (e : Event) : (s.log e).plen = s.plen := rfl
@[simp] theorem State.log_hlen (e : Event) : (s.log e).hlen = s.hlen := rfl
@[simp] theorem State.log_dval (e : Event) : (s.log e).dval = s.dval := rfl
@[simp] theorem State.log_wbuf (e : Event) : (s.log e).wbuf = s.wbuf := rfl
@[simp] theorem State.log_txbuf (e : Event) : (s.log e).txbuf = s.txbuf := rfl
@[simp] theorem State.log_rxbuf (e : Event) : (s.log e).rxbuf = s.rxbuf := rfl
@[simp] theorem State.log_pbuf (e : Event) : (s.log e).pbuf = s.pbuf := rfl
@[simp] theorem State.log_hbuf (e : Event) : (s.log e).hbuf = s.hbuf := rfl
@[simp] theorem State.log_line (e : Event) : (s.log e).line = s.line := rfl
@[simp] theorem State.log_chan (e : Event) : (s.log e).chan = s.chan := rfl
@[simp] theorem State.log_inbox (e : Event) : (s.log e).inbox = s.inbox := rfl
@[simp] theorem State.log_rdata (e : Event) : (s.log e).rdata = s.rdata := rfl
@[simp] theorem State.log_events (e : Event) : (s.log e).events = s.events ++ [e] := rfl
@[simp] theorem State.log_chanDraws (e : Event) : (s.log e).chanDraws = s.chanDraws := rfl
@[simp] theorem State.log_readDraws (e : Event) : (s.log e).readDraws = s.readDraws := rfl
@[simp] theorem State.log_resets (e : Event) : (s.log e).resets = s.resets := rfl

/-! ## `State.answerRead` -/

@[simp] theorem State.answerRead_params (v : Nat) : (s.answerRead v).params = s.params := rfl
@[simp] theorem State.answerRead_busy (v : Nat) : (s.answerRead v).busy = s.busy := rfl
@[simp] theorem State.answerRead_xstate (v : Nat) : (s.answerRead v).xstate = s.xstate := rfl
@[simp] theorem State.answerRead_vok (v : Nat) : (s.answerRead v).vok = s.vok := rfl
@[simp] theorem State.answerRead_dvalid (v : Nat) : (s.answerRead v).dvalid = s.dvalid := rfl
@[simp] theorem State.answerRead_err (v : Nat) : (s.answerRead v).err = s.err := rfl
@[simp] theorem State.answerRead_phase (v : Nat) : (s.answerRead v).phase = s.phase := rfl
@[simp] theorem State.answerRead_cfgBudget (v : Nat) : (s.answerRead v).cfgBudget = s.cfgBudget := rfl
@[simp] theorem State.answerRead_cfgWide (v : Nat) : (s.answerRead v).cfgWide = s.cfgWide := rfl
@[simp] theorem State.answerRead_slave (v : Nat) : (s.answerRead v).slave = s.slave := rfl
@[simp] theorem State.answerRead_fc (v : Nat) : (s.answerRead v).fc = s.fc := rfl
@[simp] theorem State.answerRead_raddr (v : Nat) : (s.answerRead v).raddr = s.raddr := rfl
@[simp] theorem State.answerRead_qty (v : Nat) : (s.answerRead v).qty = s.qty := rfl
@[simp] theorem State.answerRead_desc (v : Nat) : (s.answerRead v).desc = s.desc := rfl
@[simp] theorem State.answerRead_attempts (v : Nat) : (s.answerRead v).attempts = s.attempts := rfl
@[simp] theorem State.answerRead_cause (v : Nat) : (s.answerRead v).cause = s.cause := rfl
@[simp] theorem State.answerRead_excode (v : Nat) : (s.answerRead v).excode = s.excode := rfl
@[simp] theorem State.answerRead_crcreg (v : Nat) : (s.answerRead v).crcreg = s.crcreg := rfl
@[simp] theorem State.answerRead_txlen (v : Nat) : (s.answerRead v).txlen = s.txlen := rfl
@[simp] theorem State.answerRead_rxlen (v : Nat) : (s.answerRead v).rxlen = s.rxlen := rfl
@[simp] theorem State.answerRead_plen (v : Nat) : (s.answerRead v).plen = s.plen := rfl
@[simp] theorem State.answerRead_hlen (v : Nat) : (s.answerRead v).hlen = s.hlen := rfl
@[simp] theorem State.answerRead_dval (v : Nat) : (s.answerRead v).dval = s.dval := rfl
@[simp] theorem State.answerRead_wbuf (v : Nat) : (s.answerRead v).wbuf = s.wbuf := rfl
@[simp] theorem State.answerRead_txbuf (v : Nat) : (s.answerRead v).txbuf = s.txbuf := rfl
@[simp] theorem State.answerRead_rxbuf (v : Nat) : (s.answerRead v).rxbuf = s.rxbuf := rfl
@[simp] theorem State.answerRead_pbuf (v : Nat) : (s.answerRead v).pbuf = s.pbuf := rfl
@[simp] theorem State.answerRead_hbuf (v : Nat) : (s.answerRead v).hbuf = s.hbuf := rfl
@[simp] theorem State.answerRead_line (v : Nat) : (s.answerRead v).line = s.line := rfl
@[simp] theorem State.answerRead_chan (v : Nat) : (s.answerRead v).chan = s.chan := rfl
@[simp] theorem State.answerRead_inbox (v : Nat) : (s.answerRead v).inbox = s.inbox := rfl
@[simp] theorem State.answerRead_rdata (v : Nat) : (s.answerRead v).rdata = v := rfl
@[simp] theorem State.answerRead_events (v : Nat) : (s.answerRead v).events = s.events := rfl
@[simp] theorem State.answerRead_chanDraws (v : Nat) : (s.answerRead v).chanDraws = s.chanDraws := rfl
@[simp] theorem State.answerRead_readDraws (v : Nat) : (s.answerRead v).readDraws = s.readDraws := rfl
@[simp] theorem State.answerRead_resets (v : Nat) : (s.answerRead v).resets = s.resets := rfl

/-! ## `State.drawRead` -/

@[simp] theorem State.drawRead_params (w : Nat) : (s.drawRead w).params = s.params := rfl
@[simp] theorem State.drawRead_busy (w : Nat) : (s.drawRead w).busy = s.busy := rfl
@[simp] theorem State.drawRead_xstate (w : Nat) : (s.drawRead w).xstate = s.xstate := rfl
@[simp] theorem State.drawRead_vok (w : Nat) : (s.drawRead w).vok = s.vok := rfl
@[simp] theorem State.drawRead_dvalid (w : Nat) : (s.drawRead w).dvalid = s.dvalid := rfl
@[simp] theorem State.drawRead_err (w : Nat) : (s.drawRead w).err = s.err := rfl
@[simp] theorem State.drawRead_phase (w : Nat) : (s.drawRead w).phase = s.phase := rfl
@[simp] theorem State.drawRead_cfgBudget (w : Nat) : (s.drawRead w).cfgBudget = s.cfgBudget := rfl
@[simp] theorem State.drawRead_cfgWide (w : Nat) : (s.drawRead w).cfgWide = s.cfgWide := rfl
@[simp] theorem State.drawRead_slave (w : Nat) : (s.drawRead w).slave = s.slave := rfl
@[simp] theorem State.drawRead_fc (w : Nat) : (s.drawRead w).fc = s.fc := rfl
@[simp] theorem State.drawRead_raddr (w : Nat) : (s.drawRead w).raddr = s.raddr := rfl
@[simp] theorem State.drawRead_qty (w : Nat) : (s.drawRead w).qty = s.qty := rfl
@[simp] theorem State.drawRead_desc (w : Nat) : (s.drawRead w).desc = s.desc := rfl
@[simp] theorem State.drawRead_attempts (w : Nat) : (s.drawRead w).attempts = s.attempts := rfl
@[simp] theorem State.drawRead_cause (w : Nat) : (s.drawRead w).cause = s.cause := rfl
@[simp] theorem State.drawRead_excode (w : Nat) : (s.drawRead w).excode = s.excode := rfl
@[simp] theorem State.drawRead_crcreg (w : Nat) : (s.drawRead w).crcreg = s.crcreg := rfl
@[simp] theorem State.drawRead_txlen (w : Nat) : (s.drawRead w).txlen = s.txlen := rfl
@[simp] theorem State.drawRead_rxlen (w : Nat) : (s.drawRead w).rxlen = s.rxlen := rfl
@[simp] theorem State.drawRead_plen (w : Nat) : (s.drawRead w).plen = s.plen := rfl
@[simp] theorem State.drawRead_hlen (w : Nat) : (s.drawRead w).hlen = s.hlen := rfl
@[simp] theorem State.drawRead_dval (w : Nat) : (s.drawRead w).dval = s.dval := rfl
@[simp] theorem State.drawRead_wbuf (w : Nat) : (s.drawRead w).wbuf = s.wbuf := rfl
@[simp] theorem State.drawRead_txbuf (w : Nat) : (s.drawRead w).txbuf = s.txbuf := rfl
@[simp] theorem State.drawRead_rxbuf (w : Nat) : (s.drawRead w).rxbuf = s.rxbuf := rfl
@[simp] theorem State.drawRead_pbuf (w : Nat) : (s.drawRead w).pbuf = s.pbuf := rfl
@[simp] theorem State.drawRead_hbuf (w : Nat) : (s.drawRead w).hbuf = s.hbuf := rfl
@[simp] theorem State.drawRead_line (w : Nat) : (s.drawRead w).line = s.line := rfl
@[simp] theorem State.drawRead_chan (w : Nat) : (s.drawRead w).chan = s.chan := rfl
@[simp] theorem State.drawRead_inbox (w : Nat) : (s.drawRead w).inbox = s.inbox := rfl
@[simp] theorem State.drawRead_events (w : Nat) : (s.drawRead w).events = s.events := rfl
@[simp] theorem State.drawRead_chanDraws (w : Nat) : (s.drawRead w).chanDraws = s.chanDraws := rfl
@[simp] theorem State.drawRead_readDraws (w : Nat) : (s.drawRead w).readDraws = s.readDraws + 1 := rfl
@[simp] theorem State.drawRead_resets (w : Nat) : (s.drawRead w).resets = s.resets := rfl

/-! ## `State.exhaust` -/

@[simp] theorem State.exhaust_params : (s.exhaust).params = s.params := rfl
@[simp] theorem State.exhaust_busy : (s.exhaust).busy = false := rfl
@[simp] theorem State.exhaust_xstate : (s.exhaust).xstate = .exhausted := rfl
@[simp] theorem State.exhaust_vok : (s.exhaust).vok = s.vok := rfl
@[simp] theorem State.exhaust_dvalid : (s.exhaust).dvalid = s.dvalid := rfl
@[simp] theorem State.exhaust_err : (s.exhaust).err = s.err := rfl
@[simp] theorem State.exhaust_phase : (s.exhaust).phase = s.phase := rfl
@[simp] theorem State.exhaust_cfgBudget : (s.exhaust).cfgBudget = s.cfgBudget := rfl
@[simp] theorem State.exhaust_cfgWide : (s.exhaust).cfgWide = s.cfgWide := rfl
@[simp] theorem State.exhaust_slave : (s.exhaust).slave = s.slave := rfl
@[simp] theorem State.exhaust_fc : (s.exhaust).fc = s.fc := rfl
@[simp] theorem State.exhaust_raddr : (s.exhaust).raddr = s.raddr := rfl
@[simp] theorem State.exhaust_qty : (s.exhaust).qty = s.qty := rfl
@[simp] theorem State.exhaust_desc : (s.exhaust).desc = s.desc := rfl
@[simp] theorem State.exhaust_attempts : (s.exhaust).attempts = s.attempts := rfl
@[simp] theorem State.exhaust_cause : (s.exhaust).cause = s.cause := rfl
@[simp] theorem State.exhaust_excode : (s.exhaust).excode = s.excode := rfl
@[simp] theorem State.exhaust_crcreg : (s.exhaust).crcreg = s.crcreg := rfl
@[simp] theorem State.exhaust_txlen : (s.exhaust).txlen = s.txlen := rfl
@[simp] theorem State.exhaust_rxlen : (s.exhaust).rxlen = s.rxlen := rfl
@[simp] theorem State.exhaust_plen : (s.exhaust).plen = 0 := rfl
@[simp] theorem State.exhaust_hlen : (s.exhaust).hlen = s.hlen := rfl
@[simp] theorem State.exhaust_dval : (s.exhaust).dval = s.dval := rfl
@[simp] theorem State.exhaust_wbuf : (s.exhaust).wbuf = s.wbuf := rfl
@[simp] theorem State.exhaust_txbuf : (s.exhaust).txbuf = s.txbuf := rfl
@[simp] theorem State.exhaust_rxbuf : (s.exhaust).rxbuf = s.rxbuf := rfl
@[simp] theorem State.exhaust_pbuf : (s.exhaust).pbuf = s.pbuf := rfl
@[simp] theorem State.exhaust_hbuf : (s.exhaust).hbuf = s.hbuf := rfl
@[simp] theorem State.exhaust_line : (s.exhaust).line = s.line := rfl
@[simp] theorem State.exhaust_chan : (s.exhaust).chan = s.chan := rfl
@[simp] theorem State.exhaust_inbox : (s.exhaust).inbox = s.inbox := rfl
@[simp] theorem State.exhaust_rdata : (s.exhaust).rdata = s.rdata := rfl
@[simp] theorem State.exhaust_events : (s.exhaust).events = s.events ++ [.endExhausted s.cfgBudget] := rfl
@[simp] theorem State.exhaust_chanDraws : (s.exhaust).chanDraws = s.chanDraws := rfl
@[simp] theorem State.exhaust_readDraws : (s.exhaust).readDraws = s.readDraws := rfl
@[simp] theorem State.exhaust_resets : (s.exhaust).resets = s.resets := rfl

/-! ## `State.succeed` -/

@[simp] theorem State.succeed_params (raw : List Byte) : (s.succeed raw).params = s.params := rfl
@[simp] theorem State.succeed_busy (raw : List Byte) : (s.succeed raw).busy = false := rfl
@[simp] theorem State.succeed_xstate (raw : List Byte) : (s.succeed raw).xstate = .success := rfl
@[simp] theorem State.succeed_vok (raw : List Byte) : (s.succeed raw).vok = s.vok := rfl
@[simp] theorem State.succeed_dvalid (raw : List Byte) : (s.succeed raw).dvalid = s.dvalid := rfl
@[simp] theorem State.succeed_err (raw : List Byte) : (s.succeed raw).err = s.err := rfl
@[simp] theorem State.succeed_phase (raw : List Byte) : (s.succeed raw).phase = s.phase := rfl
@[simp] theorem State.succeed_cfgBudget (raw : List Byte) : (s.succeed raw).cfgBudget = s.cfgBudget := rfl
@[simp] theorem State.succeed_cfgWide (raw : List Byte) : (s.succeed raw).cfgWide = s.cfgWide := rfl
@[simp] theorem State.succeed_slave (raw : List Byte) : (s.succeed raw).slave = s.slave := rfl
@[simp] theorem State.succeed_fc (raw : List Byte) : (s.succeed raw).fc = s.fc := rfl
@[simp] theorem State.succeed_raddr (raw : List Byte) : (s.succeed raw).raddr = s.raddr := rfl
@[simp] theorem State.succeed_qty (raw : List Byte) : (s.succeed raw).qty = s.qty := rfl
@[simp] theorem State.succeed_desc (raw : List Byte) : (s.succeed raw).desc = s.desc := rfl
@[simp] theorem State.succeed_attempts (raw : List Byte) : (s.succeed raw).attempts = s.attempts := rfl
@[simp] theorem State.succeed_cause (raw : List Byte) : (s.succeed raw).cause = s.cause := rfl
@[simp] theorem State.succeed_excode (raw : List Byte) : (s.succeed raw).excode = s.excode := rfl
@[simp] theorem State.succeed_crcreg (raw : List Byte) : (s.succeed raw).crcreg = s.crcreg := rfl
@[simp] theorem State.succeed_txlen (raw : List Byte) : (s.succeed raw).txlen = s.txlen := rfl
@[simp] theorem State.succeed_rxlen (raw : List Byte) : (s.succeed raw).rxlen = s.rxlen := rfl
@[simp] theorem State.succeed_plen (raw : List Byte) : (s.succeed raw).plen = (stripResponse raw).length := rfl
@[simp] theorem State.succeed_hlen (raw : List Byte) : (s.succeed raw).hlen = s.hlen := rfl
@[simp] theorem State.succeed_dval (raw : List Byte) : (s.succeed raw).dval = s.dval := rfl
@[simp] theorem State.succeed_wbuf (raw : List Byte) : (s.succeed raw).wbuf = s.wbuf := rfl
@[simp] theorem State.succeed_txbuf (raw : List Byte) : (s.succeed raw).txbuf = s.txbuf := rfl
@[simp] theorem State.succeed_rxbuf (raw : List Byte) : (s.succeed raw).rxbuf = s.rxbuf := rfl
@[simp] theorem State.succeed_pbuf (raw : List Byte) : (s.succeed raw).pbuf = Memory.store s.pbuf 0 (stripResponse raw) := rfl
@[simp] theorem State.succeed_hbuf (raw : List Byte) : (s.succeed raw).hbuf = s.hbuf := rfl
@[simp] theorem State.succeed_line (raw : List Byte) : (s.succeed raw).line = s.line := rfl
@[simp] theorem State.succeed_chan (raw : List Byte) : (s.succeed raw).chan = s.chan := rfl
@[simp] theorem State.succeed_inbox (raw : List Byte) : (s.succeed raw).inbox = s.inbox := rfl
@[simp] theorem State.succeed_rdata (raw : List Byte) : (s.succeed raw).rdata = s.rdata := rfl
@[simp] theorem State.succeed_events (raw : List Byte) : (s.succeed raw).events = s.events ++ [.check s.attempts .none, .endSuccess s.attempts] := rfl
@[simp] theorem State.succeed_chanDraws (raw : List Byte) : (s.succeed raw).chanDraws = s.chanDraws := rfl
@[simp] theorem State.succeed_readDraws (raw : List Byte) : (s.succeed raw).readDraws = s.readDraws := rfl
@[simp] theorem State.succeed_resets (raw : List Byte) : (s.succeed raw).resets = s.resets := rfl

/-! ## `State.retry` -/

@[simp] theorem State.retry_params : (s.retry).params = s.params := by unfold State.retry; split <;> rfl
@[simp] theorem State.retry_vok : (s.retry).vok = s.vok := by unfold State.retry; split <;> rfl
@[simp] theorem State.retry_dvalid : (s.retry).dvalid = s.dvalid := by unfold State.retry; split <;> rfl
@[simp] theorem State.retry_err : (s.retry).err = s.err := by unfold State.retry; split <;> rfl
@[simp] theorem State.retry_cfgBudget : (s.retry).cfgBudget = s.cfgBudget := by unfold State.retry; split <;> rfl
@[simp] theorem State.retry_cfgWide : (s.retry).cfgWide = s.cfgWide := by unfold State.retry; split <;> rfl
@[simp] theorem State.retry_slave : (s.retry).slave = s.slave := by unfold State.retry; split <;> rfl
@[simp] theorem State.retry_fc : (s.retry).fc = s.fc := by unfold State.retry; split <;> rfl
@[simp] theorem State.retry_raddr : (s.retry).raddr = s.raddr := by unfold State.retry; split <;> rfl
@[simp] theorem State.retry_qty : (s.retry).qty = s.qty := by unfold State.retry; split <;> rfl
@[simp] theorem State.retry_desc : (s.retry).desc = s.desc := by unfold State.retry; split <;> rfl
@[simp] theorem State.retry_attempts : (s.retry).attempts = s.attempts := by unfold State.retry; split <;> rfl
@[simp] theorem State.retry_cause : (s.retry).cause = s.cause := by unfold State.retry; split <;> rfl
@[simp] theorem State.retry_excode : (s.retry).excode = s.excode := by unfold State.retry; split <;> rfl
@[simp] theorem State.retry_crcreg : (s.retry).crcreg = s.crcreg := by unfold State.retry; split <;> rfl
@[simp] theorem State.retry_txlen : (s.retry).txlen = s.txlen := by unfold State.retry; split <;> rfl
@[simp] theorem State.retry_rxlen : (s.retry).rxlen = s.rxlen := by unfold State.retry; split <;> rfl
@[simp] theorem State.retry_hlen : (s.retry).hlen = s.hlen := by unfold State.retry; split <;> rfl
@[simp] theorem State.retry_dval : (s.retry).dval = s.dval := by unfold State.retry; split <;> rfl
@[simp] theorem State.retry_wbuf : (s.retry).wbuf = s.wbuf := by unfold State.retry; split <;> rfl
@[simp] theorem State.retry_txbuf : (s.retry).txbuf = s.txbuf := by unfold State.retry; split <;> rfl
@[simp] theorem State.retry_rxbuf : (s.retry).rxbuf = s.rxbuf := by unfold State.retry; split <;> rfl
@[simp] theorem State.retry_pbuf : (s.retry).pbuf = s.pbuf := by unfold State.retry; split <;> rfl
@[simp] theorem State.retry_hbuf : (s.retry).hbuf = s.hbuf := by unfold State.retry; split <;> rfl
@[simp] theorem State.retry_line : (s.retry).line = s.line := by unfold State.retry; split <;> rfl
@[simp] theorem State.retry_chan : (s.retry).chan = s.chan := by unfold State.retry; split <;> rfl
@[simp] theorem State.retry_inbox : (s.retry).inbox = s.inbox := by unfold State.retry; split <;> rfl
@[simp] theorem State.retry_rdata : (s.retry).rdata = s.rdata := by unfold State.retry; split <;> rfl
@[simp] theorem State.retry_chanDraws : (s.retry).chanDraws = s.chanDraws := by unfold State.retry; split <;> rfl
@[simp] theorem State.retry_readDraws : (s.retry).readDraws = s.readDraws := by unfold State.retry; split <;> rfl
@[simp] theorem State.retry_resets : (s.retry).resets = s.resets := by unfold State.retry; split <;> rfl

/-! ## `State.attemptFail` -/

@[simp] theorem State.attemptFail_params (c : Cause) : (s.attemptFail c).params = s.params := State.retry_params _
@[simp] theorem State.attemptFail_vok (c : Cause) : (s.attemptFail c).vok = s.vok := State.retry_vok _
@[simp] theorem State.attemptFail_dvalid (c : Cause) : (s.attemptFail c).dvalid = s.dvalid := State.retry_dvalid _
@[simp] theorem State.attemptFail_err (c : Cause) : (s.attemptFail c).err = s.err := State.retry_err _
@[simp] theorem State.attemptFail_cfgBudget (c : Cause) : (s.attemptFail c).cfgBudget = s.cfgBudget := State.retry_cfgBudget _
@[simp] theorem State.attemptFail_cfgWide (c : Cause) : (s.attemptFail c).cfgWide = s.cfgWide := State.retry_cfgWide _
@[simp] theorem State.attemptFail_slave (c : Cause) : (s.attemptFail c).slave = s.slave := State.retry_slave _
@[simp] theorem State.attemptFail_fc (c : Cause) : (s.attemptFail c).fc = s.fc := State.retry_fc _
@[simp] theorem State.attemptFail_raddr (c : Cause) : (s.attemptFail c).raddr = s.raddr := State.retry_raddr _
@[simp] theorem State.attemptFail_qty (c : Cause) : (s.attemptFail c).qty = s.qty := State.retry_qty _
@[simp] theorem State.attemptFail_desc (c : Cause) : (s.attemptFail c).desc = s.desc := State.retry_desc _
@[simp] theorem State.attemptFail_attempts (c : Cause) : (s.attemptFail c).attempts = s.attempts := State.retry_attempts _
@[simp] theorem State.attemptFail_cause (c : Cause) : (s.attemptFail c).cause = c := State.retry_cause _
@[simp] theorem State.attemptFail_excode (c : Cause) : (s.attemptFail c).excode = s.excode := State.retry_excode _
@[simp] theorem State.attemptFail_crcreg (c : Cause) : (s.attemptFail c).crcreg = s.crcreg := State.retry_crcreg _
@[simp] theorem State.attemptFail_txlen (c : Cause) : (s.attemptFail c).txlen = s.txlen := State.retry_txlen _
@[simp] theorem State.attemptFail_rxlen (c : Cause) : (s.attemptFail c).rxlen = s.rxlen := State.retry_rxlen _
@[simp] theorem State.attemptFail_hlen (c : Cause) : (s.attemptFail c).hlen = s.hlen := State.retry_hlen _
@[simp] theorem State.attemptFail_dval (c : Cause) : (s.attemptFail c).dval = s.dval := State.retry_dval _
@[simp] theorem State.attemptFail_wbuf (c : Cause) : (s.attemptFail c).wbuf = s.wbuf := State.retry_wbuf _
@[simp] theorem State.attemptFail_txbuf (c : Cause) : (s.attemptFail c).txbuf = s.txbuf := State.retry_txbuf _
@[simp] theorem State.attemptFail_rxbuf (c : Cause) : (s.attemptFail c).rxbuf = s.rxbuf := State.retry_rxbuf _
@[simp] theorem State.attemptFail_pbuf (c : Cause) : (s.attemptFail c).pbuf = s.pbuf := State.retry_pbuf _
@[simp] theorem State.attemptFail_hbuf (c : Cause) : (s.attemptFail c).hbuf = s.hbuf := State.retry_hbuf _
@[simp] theorem State.attemptFail_line (c : Cause) : (s.attemptFail c).line = s.line := State.retry_line _
@[simp] theorem State.attemptFail_chan (c : Cause) : (s.attemptFail c).chan = s.chan := State.retry_chan _
@[simp] theorem State.attemptFail_inbox (c : Cause) : (s.attemptFail c).inbox = s.inbox := State.retry_inbox _
@[simp] theorem State.attemptFail_rdata (c : Cause) : (s.attemptFail c).rdata = s.rdata := State.retry_rdata _
@[simp] theorem State.attemptFail_chanDraws (c : Cause) : (s.attemptFail c).chanDraws = s.chanDraws := State.retry_chanDraws _
@[simp] theorem State.attemptFail_readDraws (c : Cause) : (s.attemptFail c).readDraws = s.readDraws := State.retry_readDraws _
@[simp] theorem State.attemptFail_resets (c : Cause) : (s.attemptFail c).resets = s.resets := State.retry_resets _

/-! ## `State.popAnswer` -/

@[simp] theorem State.popAnswer_params : (s.popAnswer).params = s.params := by unfold State.popAnswer; split <;> rfl
@[simp] theorem State.popAnswer_busy : (s.popAnswer).busy = s.busy := by unfold State.popAnswer; split <;> rfl
@[simp] theorem State.popAnswer_xstate : (s.popAnswer).xstate = s.xstate := by unfold State.popAnswer; split <;> rfl
@[simp] theorem State.popAnswer_vok : (s.popAnswer).vok = s.vok := by unfold State.popAnswer; split <;> rfl
@[simp] theorem State.popAnswer_dvalid : (s.popAnswer).dvalid = s.dvalid := by unfold State.popAnswer; split <;> rfl
@[simp] theorem State.popAnswer_err : (s.popAnswer).err = s.err := by unfold State.popAnswer; split <;> rfl
@[simp] theorem State.popAnswer_phase : (s.popAnswer).phase = s.phase := by unfold State.popAnswer; split <;> rfl
@[simp] theorem State.popAnswer_cfgBudget : (s.popAnswer).cfgBudget = s.cfgBudget := by unfold State.popAnswer; split <;> rfl
@[simp] theorem State.popAnswer_cfgWide : (s.popAnswer).cfgWide = s.cfgWide := by unfold State.popAnswer; split <;> rfl
@[simp] theorem State.popAnswer_slave : (s.popAnswer).slave = s.slave := by unfold State.popAnswer; split <;> rfl
@[simp] theorem State.popAnswer_fc : (s.popAnswer).fc = s.fc := by unfold State.popAnswer; split <;> rfl
@[simp] theorem State.popAnswer_raddr : (s.popAnswer).raddr = s.raddr := by unfold State.popAnswer; split <;> rfl
@[simp] theorem State.popAnswer_qty : (s.popAnswer).qty = s.qty := by unfold State.popAnswer; split <;> rfl
@[simp] theorem State.popAnswer_desc : (s.popAnswer).desc = s.desc := by unfold State.popAnswer; split <;> rfl
@[simp] theorem State.popAnswer_attempts : (s.popAnswer).attempts = s.attempts := by unfold State.popAnswer; split <;> rfl
@[simp] theorem State.popAnswer_cause : (s.popAnswer).cause = s.cause := by unfold State.popAnswer; split <;> rfl
@[simp] theorem State.popAnswer_excode : (s.popAnswer).excode = s.excode := by unfold State.popAnswer; split <;> rfl
@[simp] theorem State.popAnswer_crcreg : (s.popAnswer).crcreg = s.crcreg := by unfold State.popAnswer; split <;> rfl
@[simp] theorem State.popAnswer_txlen : (s.popAnswer).txlen = s.txlen := by unfold State.popAnswer; split <;> rfl
@[simp] theorem State.popAnswer_rxlen : (s.popAnswer).rxlen = s.rxlen := by unfold State.popAnswer; split <;> rfl
@[simp] theorem State.popAnswer_plen : (s.popAnswer).plen = s.plen := by unfold State.popAnswer; split <;> rfl
@[simp] theorem State.popAnswer_hlen : (s.popAnswer).hlen = s.hlen := by unfold State.popAnswer; split <;> rfl
@[simp] theorem State.popAnswer_dval : (s.popAnswer).dval = s.dval := by unfold State.popAnswer; split <;> rfl
@[simp] theorem State.popAnswer_wbuf : (s.popAnswer).wbuf = s.wbuf := by unfold State.popAnswer; split <;> rfl
@[simp] theorem State.popAnswer_txbuf : (s.popAnswer).txbuf = s.txbuf := by unfold State.popAnswer; split <;> rfl
@[simp] theorem State.popAnswer_rxbuf : (s.popAnswer).rxbuf = s.rxbuf := by unfold State.popAnswer; split <;> rfl
@[simp] theorem State.popAnswer_pbuf : (s.popAnswer).pbuf = s.pbuf := by unfold State.popAnswer; split <;> rfl
@[simp] theorem State.popAnswer_hbuf : (s.popAnswer).hbuf = s.hbuf := by unfold State.popAnswer; split <;> rfl
@[simp] theorem State.popAnswer_line : (s.popAnswer).line = s.line := by unfold State.popAnswer; split <;> rfl
@[simp] theorem State.popAnswer_inbox : (s.popAnswer).inbox = s.inbox := by unfold State.popAnswer; split <;> rfl
@[simp] theorem State.popAnswer_rdata : (s.popAnswer).rdata = s.rdata := by unfold State.popAnswer; split <;> rfl
@[simp] theorem State.popAnswer_events : (s.popAnswer).events = s.events := by unfold State.popAnswer; split <;> rfl
@[simp] theorem State.popAnswer_readDraws : (s.popAnswer).readDraws = s.readDraws := by unfold State.popAnswer; split <;> rfl
@[simp] theorem State.popAnswer_resets : (s.popAnswer).resets = s.resets := by unfold State.popAnswer; split <;> rfl

/-! ## `State.poke` -/

@[simp] theorem State.poke_params (b : Buf) (i : Nat) (v : Byte) : (s.poke b i v).params = s.params := by cases b <;> rfl
@[simp] theorem State.poke_busy (b : Buf) (i : Nat) (v : Byte) : (s.poke b i v).busy = s.busy := by cases b <;> rfl
@[simp] theorem State.poke_xstate (b : Buf) (i : Nat) (v : Byte) : (s.poke b i v).xstate = s.xstate := by cases b <;> rfl
@[simp] theorem State.poke_vok (b : Buf) (i : Nat) (v : Byte) : (s.poke b i v).vok = s.vok := by cases b <;> rfl
@[simp] theorem State.poke_dvalid (b : Buf) (i : Nat) (v : Byte) : (s.poke b i v).dvalid = s.dvalid := by cases b <;> rfl
@[simp] theorem State.poke_err (b : Buf) (i : Nat) (v : Byte) : (s.poke b i v).err = s.err := by cases b <;> rfl
@[simp] theorem State.poke_phase (b : Buf) (i : Nat) (v : Byte) : (s.poke b i v).phase = s.phase := by cases b <;> rfl
@[simp] theorem State.poke_cfgBudget (b : Buf) (i : Nat) (v : Byte) : (s.poke b i v).cfgBudget = s.cfgBudget := by cases b <;> rfl
@[simp] theorem State.poke_cfgWide (b : Buf) (i : Nat) (v : Byte) : (s.poke b i v).cfgWide = s.cfgWide := by cases b <;> rfl
@[simp] theorem State.poke_slave (b : Buf) (i : Nat) (v : Byte) : (s.poke b i v).slave = s.slave := by cases b <;> rfl
@[simp] theorem State.poke_fc (b : Buf) (i : Nat) (v : Byte) : (s.poke b i v).fc = s.fc := by cases b <;> rfl
@[simp] theorem State.poke_raddr (b : Buf) (i : Nat) (v : Byte) : (s.poke b i v).raddr = s.raddr := by cases b <;> rfl
@[simp] theorem State.poke_qty (b : Buf) (i : Nat) (v : Byte) : (s.poke b i v).qty = s.qty := by cases b <;> rfl
@[simp] theorem State.poke_desc (b : Buf) (i : Nat) (v : Byte) : (s.poke b i v).desc = s.desc := by cases b <;> rfl
@[simp] theorem State.poke_attempts (b : Buf) (i : Nat) (v : Byte) : (s.poke b i v).attempts = s.attempts := by cases b <;> rfl
@[simp] theorem State.poke_cause (b : Buf) (i : Nat) (v : Byte) : (s.poke b i v).cause = s.cause := by cases b <;> rfl
@[simp] theorem State.poke_excode (b : Buf) (i : Nat) (v : Byte) : (s.poke b i v).excode = s.excode := by cases b <;> rfl
@[simp] theorem State.poke_crcreg (b : Buf) (i : Nat) (v : Byte) : (s.poke b i v).crcreg = s.crcreg := by cases b <;> rfl
@[simp] theorem State.poke_txlen (b : Buf) (i : Nat) (v : Byte) : (s.poke b i v).txlen = s.txlen := by cases b <;> rfl
@[simp] theorem State.poke_rxlen (b : Buf) (i : Nat) (v : Byte) : (s.poke b i v).rxlen = s.rxlen := by cases b <;> rfl
@[simp] theorem State.poke_plen (b : Buf) (i : Nat) (v : Byte) : (s.poke b i v).plen = s.plen := by cases b <;> rfl
@[simp] theorem State.poke_hlen (b : Buf) (i : Nat) (v : Byte) : (s.poke b i v).hlen = s.hlen := by cases b <;> rfl
@[simp] theorem State.poke_dval (b : Buf) (i : Nat) (v : Byte) : (s.poke b i v).dval = s.dval := by cases b <;> rfl
@[simp] theorem State.poke_line (b : Buf) (i : Nat) (v : Byte) : (s.poke b i v).line = s.line := by cases b <;> rfl
@[simp] theorem State.poke_chan (b : Buf) (i : Nat) (v : Byte) : (s.poke b i v).chan = s.chan := by cases b <;> rfl
@[simp] theorem State.poke_inbox (b : Buf) (i : Nat) (v : Byte) : (s.poke b i v).inbox = s.inbox := by cases b <;> rfl
@[simp] theorem State.poke_rdata (b : Buf) (i : Nat) (v : Byte) : (s.poke b i v).rdata = s.rdata := by cases b <;> rfl
@[simp] theorem State.poke_events (b : Buf) (i : Nat) (v : Byte) : (s.poke b i v).events = s.events := by cases b <;> rfl
@[simp] theorem State.poke_chanDraws (b : Buf) (i : Nat) (v : Byte) : (s.poke b i v).chanDraws = s.chanDraws := by cases b <;> rfl
@[simp] theorem State.poke_readDraws (b : Buf) (i : Nat) (v : Byte) : (s.poke b i v).readDraws = s.readDraws := by cases b <;> rfl
@[simp] theorem State.poke_resets (b : Buf) (i : Nat) (v : Byte) : (s.poke b i v).resets = s.resets := by cases b <;> rfl

/-! ## `State.deliver` -/

@[simp] theorem State.deliver_params (v : DecodedValue) : (s.deliver v).params = s.params := by cases v <;> rfl
@[simp] theorem State.deliver_busy (v : DecodedValue) : (s.deliver v).busy = s.busy := by cases v <;> rfl
@[simp] theorem State.deliver_xstate (v : DecodedValue) : (s.deliver v).xstate = s.xstate := by cases v <;> rfl
@[simp] theorem State.deliver_vok (v : DecodedValue) : (s.deliver v).vok = s.vok := by cases v <;> rfl
@[simp] theorem State.deliver_err (v : DecodedValue) : (s.deliver v).err = .ok := by cases v <;> rfl
@[simp] theorem State.deliver_phase (v : DecodedValue) : (s.deliver v).phase = s.phase := by cases v <;> rfl
@[simp] theorem State.deliver_cfgBudget (v : DecodedValue) : (s.deliver v).cfgBudget = s.cfgBudget := by cases v <;> rfl
@[simp] theorem State.deliver_cfgWide (v : DecodedValue) : (s.deliver v).cfgWide = s.cfgWide := by cases v <;> rfl
@[simp] theorem State.deliver_slave (v : DecodedValue) : (s.deliver v).slave = s.slave := by cases v <;> rfl
@[simp] theorem State.deliver_fc (v : DecodedValue) : (s.deliver v).fc = s.fc := by cases v <;> rfl
@[simp] theorem State.deliver_raddr (v : DecodedValue) : (s.deliver v).raddr = s.raddr := by cases v <;> rfl
@[simp] theorem State.deliver_qty (v : DecodedValue) : (s.deliver v).qty = s.qty := by cases v <;> rfl
@[simp] theorem State.deliver_desc (v : DecodedValue) : (s.deliver v).desc = s.desc := by cases v <;> rfl
@[simp] theorem State.deliver_attempts (v : DecodedValue) : (s.deliver v).attempts = s.attempts := by cases v <;> rfl
@[simp] theorem State.deliver_cause (v : DecodedValue) : (s.deliver v).cause = s.cause := by cases v <;> rfl
@[simp] theorem State.deliver_excode (v : DecodedValue) : (s.deliver v).excode = s.excode := by cases v <;> rfl
@[simp] theorem State.deliver_crcreg (v : DecodedValue) : (s.deliver v).crcreg = s.crcreg := by cases v <;> rfl
@[simp] theorem State.deliver_txlen (v : DecodedValue) : (s.deliver v).txlen = s.txlen := by cases v <;> rfl
@[simp] theorem State.deliver_rxlen (v : DecodedValue) : (s.deliver v).rxlen = s.rxlen := by cases v <;> rfl
@[simp] theorem State.deliver_plen (v : DecodedValue) : (s.deliver v).plen = s.plen := by cases v <;> rfl
@[simp] theorem State.deliver_wbuf (v : DecodedValue) : (s.deliver v).wbuf = s.wbuf := by cases v <;> rfl
@[simp] theorem State.deliver_txbuf (v : DecodedValue) : (s.deliver v).txbuf = s.txbuf := by cases v <;> rfl
@[simp] theorem State.deliver_rxbuf (v : DecodedValue) : (s.deliver v).rxbuf = s.rxbuf := by cases v <;> rfl
@[simp] theorem State.deliver_pbuf (v : DecodedValue) : (s.deliver v).pbuf = s.pbuf := by cases v <;> rfl
@[simp] theorem State.deliver_line (v : DecodedValue) : (s.deliver v).line = s.line := by cases v <;> rfl
@[simp] theorem State.deliver_chan (v : DecodedValue) : (s.deliver v).chan = s.chan := by cases v <;> rfl
@[simp] theorem State.deliver_inbox (v : DecodedValue) : (s.deliver v).inbox = s.inbox := by cases v <;> rfl
@[simp] theorem State.deliver_rdata (v : DecodedValue) : (s.deliver v).rdata = s.rdata := by cases v <;> rfl
@[simp] theorem State.deliver_events (v : DecodedValue) : (s.deliver v).events = s.events := by cases v <;> rfl
@[simp] theorem State.deliver_chanDraws (v : DecodedValue) : (s.deliver v).chanDraws = s.chanDraws := by cases v <;> rfl
@[simp] theorem State.deliver_readDraws (v : DecodedValue) : (s.deliver v).readDraws = s.readDraws := by cases v <;> rfl
@[simp] theorem State.deliver_resets (v : DecodedValue) : (s.deliver v).resets = s.resets := by cases v <;> rfl

end Sys2Proof.Machine
end

