-- ==== Sys2Proof/Laws/Memory.lean ====
section
/-! SUPPORT. The laws of a buffer's memory: what a write makes of every later read, and that it keeps the canonical form. -/

namespace Sys2Proof.Machine

/-! ## Reading after one byte is written -/

theorem Memory.lookup_insert_self (m : Memory) (i : Nat) (v : Byte) : (Memory.insert m i v).lookup i = some v := by
  induction m with
  | nil => simp [Memory.insert, Memory.lookup]
  | cons c rest ih =>
    obtain ⟨a, b⟩ := c
    rcases Nat.lt_trichotomy i a with h | h | h
    · simp [Memory.insert, Memory.lookup, h]
    · simp [Memory.insert, Memory.lookup, h]
    · have h1 : ¬ i < a := by omega
      have h2 : ¬ i = a := by omega
      have h3 : ¬ a = i := by omega
      simp [Memory.insert, Memory.lookup, h1, h2, h3, ih]

theorem Memory.lookup_insert_ne (m : Memory) {i j : Nat} (v : Byte) (hij : j ≠ i) :
    (Memory.insert m i v).lookup j = m.lookup j := by
  induction m with
  | nil => simp [Memory.insert, Memory.lookup, Ne.symm hij]
  | cons c rest ih =>
    obtain ⟨a, b⟩ := c
    simp only [Memory.insert]
    split
    · simp [Memory.lookup, Ne.symm hij]
    · split
      · rename_i h
        subst h
        simp [Memory.lookup, Ne.symm hij]
      · simp [Memory.lookup, ih]

/-- One byte written: it reads back, every other byte is as before. -/
theorem Memory.lookup_insert (m : Memory) (i j : Nat) (v : Byte) :
    (Memory.insert m i v).lookup j = if j = i then some v else m.lookup j := by
  split
  · rename_i h
    rw [h, Memory.lookup_insert_self]
  · rename_i h
    exact Memory.lookup_insert_ne m v h

/-- Bytes written from index `i` on: the bytes read back there, every other byte is as before. -/
theorem Memory.lookup_store (m : Memory) (i j : Nat) (s : List Byte) :
    (Memory.store m i s).lookup j = if i ≤ j ∧ j < i + s.length then s[j - i]? else m.lookup j := by
  induction s generalizing m i with
  | nil =>
    have h : ¬ (i ≤ j ∧ j < i + 0) := by omega
    simp only [Memory.store, List.length_nil, h, if_false]
  | cons b rest ih =>
    simp only [Memory.store, ih, Memory.lookup_insert, List.length_cons]
    by_cases h1 : i + 1 ≤ j ∧ j < i + 1 + rest.length
    · have h2 : i ≤ j ∧ j < i + (rest.length + 1) := by omega
      have h3 : j - i = (j - (i + 1)) + 1 := by omega
      rw [if_pos h1, if_pos h2, h3, List.getElem?_cons_succ]
    · rw [if_neg h1]
      by_cases h4 : j = i
      · have h2 : i ≤ j ∧ j < i + (rest.length + 1) := by omega
        rw [if_pos h4, if_pos h2, h4, Nat.sub_self, List.getElem?_cons_zero]
      · have h2 : ¬ (i ≤ j ∧ j < i + (rest.length + 1)) := by omega
        rw [if_neg h4, if_neg h2]

/-! ## The canonical form is kept -/

theorem Memory.wf_nil : Memory.wf [] := List.Pairwise.nil

theorem Memory.mem_insert {m : Memory} {i : Nat} {v : Byte} {c : Host.Cell} (h : c ∈ Memory.insert m i v) :
    c = (i, v) ∨ c ∈ m := by
  induction m with
  | nil => simpa [Memory.insert] using h
  | cons d rest ih =>
    obtain ⟨a, b⟩ := d
    simp only [Memory.insert] at h
    split at h
    · simpa using h
    · split at h
      · rcases List.mem_cons.mp h with h | h
        · exact .inl h
        · exact .inr (List.mem_cons_of_mem _ h)
      · rcases List.mem_cons.mp h with h | h
        · exact .inr (h ▸ List.mem_cons_self)
        · rcases ih h with h | h
          · exact .inl h
          · exact .inr (List.mem_cons_of_mem _ h)

theorem Memory.wf_cons {c : Host.Cell} {m : Memory} :
    Memory.wf (c :: m) ↔ (∀ d ∈ m, c.1 < d.1) ∧ Memory.wf m := by
  simp only [Memory.wf, List.map_cons, List.pairwise_cons, List.mem_map]
  constructor
  · rintro ⟨h1, h2⟩
    exact ⟨fun d hd => h1 _ ⟨d, hd, rfl⟩, h2⟩
  · rintro ⟨h1, h2⟩
    exact ⟨by rintro _ ⟨d, hd, rfl⟩; exact h1 d hd, h2⟩

theorem Memory.wf_insert {m : Memory} (hm : Memory.wf m) (i : Nat) (v : Byte) : Memory.wf (Memory.insert m i v) := by
  induction m with
  | nil => exact Memory.wf_cons.mpr ⟨by simp, Memory.wf_nil⟩
  | cons c rest ih =>
    obtain ⟨a, b⟩ := c
    obtain ⟨h1, h2⟩ := Memory.wf_cons.mp hm
    simp only [Memory.insert]
    split
    · rename_i h
      refine Memory.wf_cons.mpr ⟨fun d hd => ?_, hm⟩
      rcases List.mem_cons.mp hd with rfl | hd
      · exact h
      · exact Nat.lt_trans h (h1 d hd)
    · split
      · rename_i h
        subst h
        exact Memory.wf_cons.mpr ⟨h1, h2⟩
      · refine Memory.wf_cons.mpr ⟨fun d hd => ?_, ih h2⟩
        rcases Memory.mem_insert hd with rfl | hd
        · simp only
          omega
        · exact h1 d hd

theorem Memory.wf_store {m : Memory} (hm : Memory.wf m) (i : Nat) (s : List Byte) : Memory.wf (Memory.store m i s) := by
  induction s generalizing m i with
  | nil => exact hm
  | cons b rest ih => exact ih (Memory.wf_insert hm i b) (i + 1)

theorem Memory.within_insert {cap : Nat} {m : Memory} (hm : Memory.within cap m) {i : Nat} (hi : i < cap) (v : Byte) :
    Memory.within cap (Memory.insert m i v) := by
  intro c hc
  rcases Memory.mem_insert hc with rfl | hc
  · exact hi
  · exact hm c hc

theorem Memory.within_store {cap : Nat} {m : Memory} (hm : Memory.within cap m) {i : Nat} {s : List Byte}
    (hs : i + s.length ≤ cap) : Memory.within cap (Memory.store m i s) := by
  induction s generalizing m i with
  | nil => exact hm
  | cons b rest ih =>
    simp only [List.length_cons] at hs
    exact ih (Memory.within_insert hm (by omega) b) (by omega)

/-! ## Reading the state's buffers -/

@[simp] theorem State.readBytes_length (s : State) (b : Buf) (n : Nat) : (s.readBytes b n).length = n := by
  simp [State.readBytes]

theorem State.readBytes_getElem? (s : State) (b : Buf) (n j : Nat) :
    (s.readBytes b n)[j]? = if j < n then some (s.byteAt b j) else none := by
  simp only [State.readBytes, List.getElem?_map]
  split
  · rename_i h
    simp [List.getElem?_range h]
  · rename_i h
    rw [List.getElem?_eq_none (by simpa using Nat.le_of_not_lt h)]
    rfl

/-- Two states with the same bytes read the same. -/
theorem State.readBytes_congr {s t : State} {b c : Buf} {n : Nat} (h : ∀ j, j < n → s.byteAt b j = t.byteAt c j) :
    s.readBytes b n = t.readBytes c n := by
  refine List.map_congr_left fun j hj => h j (List.mem_range.mp hj)

/-- A byte depends on its buffer and on the number of resets alone. -/
theorem State.byteAt_congr {s t : State} {b : Buf} (hb : s.buf b = t.buf b) (hr : s.resets = t.resets) (j : Nat) :
    s.byteAt b j = t.byteAt b j := by
  simp only [State.byteAt, hb, hr]

/-- After `MemWrite(BUF+0, n, x)` the bytes of `x` read back. -/
theorem State.byteAt_of_store {s t : State} {b : Buf} {x : List Byte} (hb : t.buf b = Memory.store (s.buf b) 0 x)
    (hr : t.resets = s.resets) (j : Nat) : t.byteAt b j = (x[j]?).getD (s.byteAt b j) := by
  simp only [State.byteAt, hb, hr, Memory.lookup_store, Nat.zero_le, true_and, Nat.zero_add, Nat.sub_zero]
  by_cases h : j < x.length
  · simp [h]
  · simp [h]

theorem State.readBytes_of_store {s t : State} {b : Buf} {x : List Byte} (hb : t.buf b = Memory.store (s.buf b) 0 x)
    (hr : t.resets = s.resets) : t.readBytes b x.length = x := by
  refine List.ext_getElem? fun j => ?_
  rw [State.readBytes_getElem?]
  split
  · rename_i h
    rw [State.byteAt_of_store hb hr, List.getElem?_eq_getElem h]
    rfl
  · rename_i h
    exact (List.getElem?_eq_none (by omega)).symm

theorem State.byteAt_of_store_beyond {s t : State} {b : Buf} {x : List Byte}
    (hb : t.buf b = Memory.store (s.buf b) 0 x) (hr : t.resets = s.resets) {j : Nat} (hj : x.length ≤ j) :
    t.byteAt b j = s.byteAt b j := by
  rw [State.byteAt_of_store hb hr, List.getElem?_eq_none hj]
  rfl

/-! ## Results stored with their length -/

/-- `storeTx`: the frame reads back, with its length, and the rest of `TXBUF` is as before. -/
theorem State.storeTx_spec (s : State) (x : List Byte) :
    (s.storeTx x).frame = x ∧ (s.storeTx x).txlen = x.length ∧
      ∀ j, x.length ≤ j → (s.storeTx x).byteAt .txbuf j = s.byteAt .txbuf j :=
  ⟨State.readBytes_of_store rfl rfl, rfl,
    fun _ hj => State.byteAt_of_store_beyond (s := s) (t := s.storeTx x) (b := .txbuf) rfl rfl hj⟩

/-- `storeRx`: the response reads back, with its length, and the rest of `RXBUF` is as before. -/
theorem State.storeRx_spec (s : State) (x : List Byte) :
    (s.storeRx x).response = x ∧ (s.storeRx x).rxlen = x.length ∧
      ∀ j, x.length ≤ j → (s.storeRx x).byteAt .rxbuf j = s.byteAt .rxbuf j :=
  ⟨State.readBytes_of_store rfl rfl, rfl,
    fun _ hj => State.byteAt_of_store_beyond (s := s) (t := s.storeRx x) (b := .rxbuf) rfl rfl hj⟩

/-- `storePayload`: the payload reads back, with its length, and the rest of `PBUF` is as before. -/
theorem State.storePayload_spec (s : State) (x : List Byte) :
    (s.storePayload x).payload = x ∧ (s.storePayload x).plen = x.length ∧
      ∀ j, x.length ≤ j → (s.storePayload x).byteAt .pbuf j = s.byteAt .pbuf j :=
  ⟨State.readBytes_of_store rfl rfl, rfl,
    fun _ hj => State.byteAt_of_store_beyond (s := s) (t := s.storePayload x) (b := .pbuf) rfl rfl hj⟩

/-- `storeHex`: the string reads back, with its length, and the rest of `HBUF` is as before. -/
theorem State.storeHex_spec (s : State) (x : List Byte) :
    (s.storeHex x).readBytes .hbuf x.length = x ∧ (s.storeHex x).hlen = x.length ∧
      ∀ j, x.length ≤ j → (s.storeHex x).byteAt .hbuf j = s.byteAt .hbuf j :=
  ⟨State.readBytes_of_store rfl rfl, rfl,
    fun _ hj => State.byteAt_of_store_beyond (s := s) (t := s.storeHex x) (b := .hbuf) rfl rfl hj⟩

end Sys2Proof.Machine
end

