-- ==== Sys2Proof/Laws/Executor.lean ====
section
/-! SUPPORT. What the shared operations of the executor and the host do, said once each: failing an attempt, the channel's answer, the rows' meanings, and that no meaning stops. -/

namespace Sys2Proof.Machine

/-! ## Failing an attempt -/

/-- A failed attempt with attempts remaining: the cause, the event, and BUILD. -/
theorem State.attemptFail_retry (s : State) (c : Cause) (h : s.attempts < s.cfgBudget) :
    s.attemptFail c = { s with cause := c, phase := .build, events := s.events ++ [.check s.attempts c] } := by
  simp only [State.attemptFail, State.retry, h, if_true]

/-- A failed attempt with none remaining: the cause, the events, no data, EXHAUSTED. -/
theorem State.attemptFail_exhaust (s : State) (c : Cause) (h : ¬ s.attempts < s.cfgBudget) :
    s.attemptFail c =
      { s with
        cause := c
        plen := 0
        xstate := .exhausted
        busy := false
        events := s.events ++ [.check s.attempts c] ++ [.endExhausted s.cfgBudget] } := by
  simp only [State.attemptFail, State.retry, h, if_false, State.exhaust]

/-! ## The channel's answer -/

@[simp] theorem State.popAnswer_answer_irrel (s : State) (l : List Byte) :
    ({ s with line := l } : State).answer = s.answer := rfl

/-- Using up an answer changes the list or the counter and nothing else. -/
theorem State.popAnswer_eq (s : State) :
    s.popAnswer = { s with chan := s.popAnswer.chan, chanDraws := s.popAnswer.chanDraws } := by
  unfold State.popAnswer
  split <;> rfl

@[simp] theorem State.popAnswer_chan (s : State) : s.popAnswer.chan = s.chan.tail := by
  cases h : s.chan <;> simp [State.popAnswer, h]

@[simp] theorem State.popAnswer_chanDraws (s : State) :
    s.popAnswer.chanDraws = s.chanDraws + s.chan.isEmpty.toNat := by
  cases h : s.chan <;> simp [State.popAnswer, h]

/-! ## Responses -/

theorem stripResponse_length (raw : List Byte) : (stripResponse raw).length = raw.length - 5 := by
  simp [stripResponse, dropLastN]
  omega

theorem stripResponse_eq (raw : List Byte) : stripResponse raw = (raw.drop 3).take (raw.length - 5) := by
  simp [stripResponse, dropLastN, Nat.sub_sub]

/-- The class of a response to a legal request: an EXC row when at least 5 bytes long with byte 1 the requested code with bit 7
set, else RSP. -/
theorem classify_cases {fc : Byte} (hfc : fc = 0x03#8 ∨ fc = 0x04#8 ∨ fc = 0x06#8 ∨ fc = 0x10#8) (raw : List Byte) :
    (∃ addr code tail, 2 ≤ tail.length ∧ raw = addr :: (fc ||| 0x80#8) :: code :: tail ∧
      (classify fc raw = .exc03 addr code tail ∨ classify fc raw = .exc04 addr code tail ∨
        classify fc raw = .exc06 addr code tail ∨ classify fc raw = .exc10 addr code tail)) ∨
    ((raw.length < 5 ∨ isException raw fc = false) ∧ classify fc raw = .rsp raw) := by
  match raw with
  | [] => exact .inr ⟨.inl (by simp), rfl⟩
  | [_] => exact .inr ⟨.inl (by simp), rfl⟩
  | [_, _] => exact .inr ⟨.inl (by simp), rfl⟩
  | addr :: f :: code :: tail =>
    by_cases ht : 2 ≤ tail.length
    · by_cases hf : f = fc ||| 0x80#8
      · left
        refine ⟨addr, code, tail, ht, by rw [hf], ?_⟩
        rcases hfc with rfl | rfl | rfl | rfl <;> subst hf <;> simp [classify, ht]
      · right
        refine ⟨.inr ?_, ?_⟩
        · simpa [isException] using hf
        · rcases hfc with rfl | rfl | rfl | rfl <;> simp only [classify, ht, if_true] <;>
            simp at hf ⊢ <;> simp [hf]
    · right
      refine ⟨.inl (by simp; omega), ?_⟩
      simp [classify, ht]

theorem classify_wf {c : Params} {fc : Byte} {raw : List Byte} (h : raw.length ≤ c.rxMax) :
    (classify fc raw).wf c = true := by
  unfold classify
  split
  · rename_i addr f code tail
    have hr : responseOk c (addr :: f :: code :: tail) = true := by simpa [responseOk] using h
    split
    · rename_i ht
      have he : excTailOk c tail = true := by
        simp only [List.length_cons] at h
        simp [excTailOk, ht, h]
      repeat' split
      all_goals first
        | exact he
        | exact hr
    · exact hr
  · simpa [Instr.wf, responseOk] using h

/-- The operands `check` passes have one of the four function codes. -/
theorem fc_of_checkOperands {fc : Byte} {qty : Half} {slave : Byte} {p : Profile}
    (h : checkOperands fc qty slave p = none) : fc = 0x03#8 ∨ fc = 0x04#8 ∨ fc = 0x06#8 ∨ fc = 0x10#8 := by
  unfold checkOperands at h
  split at h
  · exact absurd h (by simp)
  · rename_i hn
    simp only [Bool.not_eq_true, Bool.not_eq_false', Bool.or_eq_true, isReadFc_iff, isWriteFc_iff] at hn
    tauto

/-! ## The rows' meanings -/

theorem State.checking_iff (s : State) : s.checking = true ↔ s.busy = true ∧ s.phase = .check := by
  simp [State.checking]

theorem State.mayBuild_iff (s : State) : s.mayBuild = true ↔ s.busy = false ∨ s.phase = .build := by
  simp [State.mayBuild]

/-- A row's frame built: `TXBUF` and `TXLEN` where a frame may be built, nothing elsewhere. -/
theorem buildFrame_eq (frame : List Byte) (s : State) :
    buildFrame frame s = .next (if s.mayBuild then s.storeTx frame else s) := by
  unfold buildFrame
  split <;> simp_all

theorem checkException_eq (code : Byte) (s : State) :
    checkException code s =
      .next (if s.checking then ({ s with excode := code }).attemptFail .exception else s) := by
  unfold checkException
  split <;> simp_all

/-- The frame of a request row, as the meanings build it, is its encoding. -/
theorem exec_request {s : State} {i : Instr} {p : Profile} (hi : i.inSpace (.request p) = true) :
    exec i s = buildFrame (encode i) s := by
  cases i <;> first
    | rfl
    | exact absurd hi Bool.false_ne_true

theorem payloadOk_iff (p : List Byte) : payloadOk p = true ↔ p.length ≤ 255 := by
  rw [payloadOk, decide_eq_true_iff]

/-- A request row's bytes are at most 262, `P_TX_MAX`. -/
theorem encode_request_length {c : Params} {i : Instr} {p : Profile} (hi : i.inSpace (.request p) = true)
    (hw : i.wf c = true) : (encode i).length ≤ 262 := by
  cases i
  case rdhN => simp [encode]
  case rdhW => simp [encode]
  case rdiN => simp [encode]
  case rdiW => simp [encode]
  case wrs slave raddr payload =>
    have := (payloadOk_iff payload).mp hw
    simp [encode]
    omega
  case wrm slave raddr payload =>
    have := (payloadOk_iff payload).mp hw
    simp [encode]
    omega
  all_goals exact absurd hi Bool.false_ne_true

/-- The row the operand registers select is a well-formed row of the request space. -/
theorem select_wf_inSpace (c : Params) {o : RequestOperands} {i : Instr} (h : selectRequest o = .ok i)
    (hp : o.payload.length ≤ 255) : i.wf c = true ∧ i.inSpace (.request o.profile) = true := by
  unfold selectRequest at h
  split at h
  · split at h
    · rename_i hw
      rcases wideRead_ok h with ⟨hf, rfl⟩ | ⟨hf, rfl⟩ <;> rw [hf] at hw <;> exact ⟨rfl, hw⟩
    · rename_i hw
      split at h
      · exact absurd h (by simp)
      · rcases narrowRead_ok h with ⟨hf, rfl⟩ | ⟨hf, rfl⟩ <;> rw [hf] at hw <;>
          exact ⟨rfl, by simpa [Instr.inSpace, Space.isRequest] using hw⟩
  · split at h
    · split at h
      · exact absurd h (by simp)
      · have ht : (o.payload.take o.qty.toNat).length ≤ 255 := by
          rw [List.length_take]
          omega
        split at h
        · simp only [Except.ok.injEq] at h
          subst h
          exact ⟨(payloadOk_iff _).mpr ht, rfl⟩
        · simp only [Except.ok.injEq] at h
          subst h
          exact ⟨(payloadOk_iff _).mpr ht, rfl⟩
    · exact absurd h (by simp)

@[simp] theorem State.operands_payload_length (s : State) : s.operands.payload.length = min s.qty.toNat 255 :=
  State.readBytes_length _ _ _

theorem State.operands_payload_le (s : State) : s.operands.payload.length ≤ 255 := by
  rw [State.operands_payload_length]
  exact Nat.min_le_right _ _

/-- Legal operands select a row, whose bytes are the frame `encode_request` makes. -/
theorem State.select_of_legal {s : State} (h : s.operandError = none) :
    ∃ i, selectRequest s.operands = .ok i ∧ i.wf s.params = true ∧ i.inSpace (.request s.cfgWide) = true ∧
      encodeRequest s.operands = .ok (encode i) := by
  obtain ⟨i, hi⟩ := (checkOperands_none_iff s.operands).mp h
  obtain ⟨hw, hs⟩ := select_wf_inSpace s.params hi s.operands_payload_le
  exact ⟨i, hi, hw, hs, encodeRequest_of_select hi s.operands_payload_length⟩

/-- No meaning stops. -/
theorem exec_goes (i : Instr) (s : State) : ∃ t, exec i s = .next t := by
  cases i <;>
    simp only [exec, execCrc16, execVerify, execEncode, execDecrsp, execXact, execDecode, execRdhN, execRdhW, execRdiN,
      execRdiW, execWrs, execWrm, execExc03, execExc04, execExc06, execExc10, execRsp, execDecHex, execDecU, execDecS,
      decodeUnder, buildFrame_eq, checkException_eq] <;>
    (repeat' split) <;> exact ⟨_, rfl⟩

/-- What a command code decodes to is well formed. -/
theorem decodeCommand_wf {p : Params} {c : Byte} {i : Instr} (h : decodeCommand c = .ok i) : i.wf p = true := by
  unfold decodeCommand at h
  repeat' split at h
  all_goals first
    | (simp only [Except.ok.injEq] at h; subst h; rfl)
    | exact absurd h (by simp)

end Sys2Proof.Machine
end

