-- ==== Sys2Proof/Laws/Attempt.lean ====
section
/-! SUPPORT. The phases as steps, runs joined end to end, and what one whole attempt comes to. -/

namespace Sys2Proof.Machine

/-! ## A phase is a step -/

theorem step_of_no_input {s : State} (h : s.inbox = []) : step s = stepExecutor s := by simp [step, stepInput, h]

theorem step_build {s : State} (h : s.inbox = []) (hb : s.busy = true) (hp : s.phase = .build) : step s = stepBuild s := by
  simp [step_of_no_input h, stepExecutor, hb, hp]

theorem step_flush {s : State} (h : s.inbox = []) (hb : s.busy = true) (hp : s.phase = .flush) : step s = stepFlush s := by
  simp [step_of_no_input h, stepExecutor, hb, hp]

theorem step_write {s : State} (h : s.inbox = []) (hb : s.busy = true) (hp : s.phase = .write) : step s = stepWrite s := by
  simp [step_of_no_input h, stepExecutor, hb, hp]

theorem step_read {s : State} (h : s.inbox = []) (hb : s.busy = true) (hp : s.phase = .read) : step s = stepRead s := by
  simp [step_of_no_input h, stepExecutor, hb, hp]

theorem step_check {s : State} (h : s.inbox = []) (hb : s.busy = true) (hp : s.phase = .check) : step s = stepCheck s := by
  simp [step_of_no_input h, stepExecutor, hb, hp]

/-! ## Runs -/

theorem run_zero (s : State) : Sys2Proof.core.run 0 s = .next s := rfl

theorem run_succ {s t : State} (h : step s = .next t) (k : Nat) : Sys2Proof.core.run (k + 1) s = Sys2Proof.core.run k t := by
  have hc : Sys2Proof.core.step s = .next t := h
  rw [show Sys2Proof.core.run (k + 1) s = _ from Host.Core.run.eq_2 _ _ _, hc]

/-- A run that goes on has a first step that goes on. -/
theorem step_of_run_succ {s t : State} {k : Nat} (h : Sys2Proof.core.run (k + 1) s = .next t) :
    ∃ u, step s = .next u ∧ Sys2Proof.core.run k u = .next t := by
  rw [show Sys2Proof.core.run (k + 1) s = _ from Host.Core.run.eq_2 _ _ _] at h
  split at h
  · rename_i u hu
    exact ⟨u, hu, h⟩
  · exact absurd h (by simp)
  · exact absurd h (by simp)

theorem run_append {s t : State} {k : Nat} (h : Sys2Proof.core.run k s = .next t) (m : Nat) :
    Sys2Proof.core.run (k + m) s = Sys2Proof.core.run m t := by
  induction k generalizing s with
  | zero =>
    injection h with h
    rw [Nat.zero_add, h]
  | succ k ih =>
    obtain ⟨u, hs, hu⟩ := step_of_run_succ h
    rw [Nat.add_right_comm, run_succ hs, ih hu]

/-! ## The operand registers -/

/-- The operands depend on the operand registers, the profile, `WBUF` and the number of resets. -/
theorem State.operands_congr {s t : State} (h1 : t.slave = s.slave) (h2 : t.fc = s.fc) (h3 : t.raddr = s.raddr)
    (h4 : t.qty = s.qty) (h5 : t.wbuf = s.wbuf) (h6 : t.cfgWide = s.cfgWide) (h7 : t.resets = s.resets) :
    t.operands = s.operands := by
  simp only [State.operands, h1, h2, h3, h4, h6]
  congr 1
  exact State.readBytes_congr fun j _ => State.byteAt_congr (s := t) (t := s) (b := .wbuf) h5 h7 j

/-! ## The channel's answers to come -/

theorem State.answer_congr {s t : State} (h1 : t.chan = s.chan) (h2 : t.chanDraws = s.chanDraws) : t.answer = s.answer := by
  simp only [State.answer, h1, h2]

theorem State.popAnswer_congr {s t : State} (h1 : t.chan = s.chan) (h2 : t.chanDraws = s.chanDraws) :
    t.popAnswer.chan = s.popAnswer.chan ∧ t.popAnswer.chanDraws = s.popAnswer.chanDraws := by
  simp [h1, h2]

/-- The answers of an attempt, and what they leave, depend on the list and on how many were drawn alone. -/
theorem State.attempt_congr {s t : State} (h1 : t.chan = s.chan) (h2 : t.chanDraws = s.chanDraws) :
    t.attemptAnswer = s.attemptAnswer ∧ t.popAttempt.chan = s.popAttempt.chan ∧
      t.popAttempt.chanDraws = s.popAttempt.chanDraws := by
  have p1 := State.popAnswer_congr h1 h2
  have p2 := State.popAnswer_congr p1.1 p1.2
  have p3 := State.popAnswer_congr p2.1 p2.2
  simp only [State.attemptAnswer, State.popAttempt, State.answer_congr h1 h2, State.answer_congr p1.1 p1.2,
    State.answer_congr p2.1 p2.2]
  cases s.answer with
  | fail => exact ⟨trivial, p1⟩
  | ok _ =>
    cases s.popAnswer.answer with
    | fail => exact ⟨trivial, p2⟩
    | ok _ => exact ⟨trivial, p3⟩

/-- The answers to come depend on the list and on how many were drawn alone. -/
theorem State.upcoming_congr {s t : State} (h1 : t.chan = s.chan) (h2 : t.chanDraws = s.chanDraws) (n : Nat) :
    t.upcoming n = s.upcoming n := by
  induction n generalizing s t with
  | zero => rfl
  | succ n ih =>
    obtain ⟨ha, hp⟩ := State.attempt_congr h1 h2
    simp only [State.upcoming, ha, ih hp.1 hp.2]

/-- An attempt whose flush fails: one call. -/
theorem State.attempt_flushFail {s : State} (h : s.answer = .fail) :
    s.attemptAnswer = .flushFail ∧ s.popAttempt = s.popAnswer := by
  simp [State.attemptAnswer, State.popAttempt, h]

/-- An attempt whose write fails: two calls. -/
theorem State.attempt_writeFail {s : State} {x : List Byte} (h : s.answer = .ok x) (h2 : s.popAnswer.answer = .fail) :
    s.attemptAnswer = .writeFail ∧ s.popAttempt = s.popAnswer.popAnswer := by
  simp [State.attemptAnswer, State.popAttempt, h, h2]

/-- An attempt whose read fails: three calls. -/
theorem State.attempt_readFail {s : State} {x y : List Byte} (h : s.answer = .ok x) (h2 : s.popAnswer.answer = .ok y)
    (h3 : s.popAnswer.popAnswer.answer = .fail) :
    s.attemptAnswer = .readFail ∧ s.popAttempt = s.popAnswer.popAnswer.popAnswer := by
  simp [State.attemptAnswer, State.popAttempt, h, h2, h3]

/-- An attempt whose read returns bytes: three calls. -/
theorem State.attempt_rx {s : State} {x y r : List Byte} (h : s.answer = .ok x) (h2 : s.popAnswer.answer = .ok y)
    (h3 : s.popAnswer.popAnswer.answer = .ok r) :
    s.attemptAnswer = .rx r ∧ s.popAttempt = s.popAnswer.popAnswer.popAnswer := by
  simp [State.attemptAnswer, State.popAttempt, h, h2, h3]

/-! ## One attempt -/

/-- What an attempt keeps of the state it starts in: the inputs to come, the operand registers and configuration; and what it
always does: the attempt is counted and the draws of its calls are used up. -/
structure State.Attempted (s t : State) : Prop where
  params : t.params = s.params
  inbox : t.inbox = s.inbox
  slave : t.slave = s.slave
  fc : t.fc = s.fc
  raddr : t.raddr = s.raddr
  qty : t.qty = s.qty
  wbuf : t.wbuf = s.wbuf
  cfgWide : t.cfgWide = s.cfgWide
  cfgBudget : t.cfgBudget = s.cfgBudget
  resets : t.resets = s.resets
  attempts : t.attempts = s.attempts + 1
  chan : t.chan = s.popAttempt.chan
  chanDraws : t.chanDraws = s.popAttempt.chanDraws

/-- The frames an attempt hands to the channel: none when the flush fails, else the frame once. -/
def attemptTx (frame : List Byte) : ChanAnswer → List Event
  | .flushFail => []
  | .writeFail => [.tx frame false]
  | .readFail => [.tx frame true]
  | .rx _ => [.tx frame true]

/-- What an attempt of outcome `o` leaves (42_transaction_executor.md R158, R161, R162): success with the payload, or the cause
and then BUILD while attempts remain, else EXHAUSTED with no data. -/
def State.AttemptEnds (t : State) : AttemptResult → Prop
  | .ok p => t.busy = false ∧ t.xstate = .success ∧ t.payload = p ∧ t.plen = p.length
  | .fail c => t.cause = c ∧
      if t.attempts < t.cfgBudget then t.busy = true ∧ t.phase = .build
      else t.busy = false ∧ t.xstate = .exhausted ∧ t.plen = 0

theorem attemptEnds_attemptFail {s : State} (hb : s.busy = true) (c : Cause) :
    (s.attemptFail c).AttemptEnds (.fail c) := by
  by_cases h : s.attempts < s.cfgBudget
  · rw [s.attemptFail_retry c h]
    exact ⟨rfl, by simp [h, hb]⟩
  · rw [s.attemptFail_exhaust c h]
    exact ⟨rfl, by simp [h]⟩

/-- The history a failed attempt adds holds no write. -/
theorem attemptFail_writes (s : State) (c : Cause) :
    (s.attemptFail c).events.filter isTx = s.events.filter isTx := by
  by_cases h : s.attempts < s.cfgBudget
  · rw [s.attemptFail_retry c h]
    simp [isTx, List.filter]
  · rw [s.attemptFail_exhaust c h]
    simp [isTx, List.filter]

/-- BUILD with legal operands: the attempt counted, the frame in `TXBUF`, FLUSH next. -/
theorem stepBuild_eq {s : State} (hp : s.phase = .build) {frame : List Byte} (hf : encodeRequest s.operands = .ok frame) :
    stepBuild s = .next { s.storeTx frame with
      attempts := s.attempts + 1, phase := .flush
      events := s.events ++ [.build (s.attempts + 1) frame] } := by
  have hc : s.operandError = none := by
    cases hc : s.operandError with
    | none => rfl
    | some e => exact absurd (hf.symm.trans ((encodeRequest_error_iff _ _).mpr hc)) (by simp)
  obtain ⟨i, hs, -, hi, he⟩ := State.select_of_legal hc
  have hfi : encode i = frame := by
    rw [he] at hf
    injection hf
  have hm : ({ s with attempts := s.attempts + 1 } : State).mayBuild = true := State.mayBuild_iff _ |>.mpr (.inr hp)
  have hfr := (State.storeTx_spec { s with attempts := s.attempts + 1 } frame).1
  simp only [stepBuild, hs, exec_request hi, buildFrame_eq, hm, if_true, State.log, hfi, hfr]
  rfl

/-- CHECK of a response in `RXBUF`, by the outcome of 42_transaction_executor.md R170. -/
theorem stepCheck_ends {s : State} (hb : s.busy = true) (hp : s.phase = .check) (hc : s.operandError = none)
    (hl : s.response.length ≤ s.params.rxMax) :
    ∃ t, stepCheck s = .next t ∧ t.AttemptEnds (outcome s.params s.fc (.rx s.response)) ∧
      t.events.filter isTx = s.events.filter isTx ∧
      t.params = s.params ∧ t.inbox = s.inbox ∧ t.slave = s.slave ∧ t.fc = s.fc ∧ t.raddr = s.raddr ∧ t.qty = s.qty ∧ t.wbuf = s.wbuf ∧
      t.cfgWide = s.cfgWide ∧ t.cfgBudget = s.cfgBudget ∧ t.resets = s.resets ∧ t.attempts = s.attempts ∧
      t.chan = s.chan ∧ t.chanDraws = s.chanDraws := by
  have hk : s.checking = true := s.checking_iff.mpr ⟨hb, hp⟩
  rcases classify_cases (fc_of_checkOperands hc) s.response with ⟨addr, code, tail, ht, hraw, hcl⟩ | ⟨hno, hcl⟩
  · have hx : stepCheck s = checkException code s := by
      rcases hcl with h | h | h | h <;> rw [stepCheck, h] <;> rfl
    have ho : outcome s.params s.fc (.rx s.response) = .fail .exception := by
      have h1 : ¬ s.params.rxMax < s.response.length := Nat.not_lt.mpr hl
      have h2 : ¬ s.response.length = 0 := by rw [hraw]; simp
      have h3 : ¬ s.response.length < 5 := by rw [hraw]; simp; omega
      have h4 : isException s.response s.fc = true := by rw [hraw]; simp [isException]
      simp only [outcome, h1, h2, h3, h4, if_true, if_false]
    rw [hx, checkException_eq, if_pos hk, ho]
    exact ⟨_, rfl, attemptEnds_attemptFail (s := { s with excode := code }) hb .exception,
      attemptFail_writes { s with excode := code } .exception, by simp⟩
  · have ho : outcome s.params s.fc (.rx s.response) =
        match responseCause s.response with
        | some c => .fail c
        | none => .ok (stripResponse s.response) := by
      have h1 : ¬ s.params.rxMax < s.response.length := Nat.not_lt.mpr hl
      simp only [outcome, h1, if_false, responseCause]
      by_cases h2 : s.response.length = 0
      · simp only [h2, if_true]
      · by_cases h3 : s.response.length < 5
        · simp only [h2, h3, if_true, if_false]
        · have h4 : isException s.response s.fc = false := hno.resolve_left h3
          cases hv : verify s.response <;> simp [h2, h3, h4]
    rw [stepCheck, hcl, ho]
    simp only [exec, execRsp, hk, if_true]
    cases responseCause s.response with
    | some c => exact ⟨_, rfl, attemptEnds_attemptFail hb c, attemptFail_writes _ _, by simp⟩
    | none =>
      have hspec := s.storePayload_spec (stripResponse s.response)
      exact ⟨_, rfl, ⟨rfl, rfl, hspec.1, hspec.2.1⟩, by simp [State.succeed, isTx], by simp⟩

/-- One whole attempt, with no host event pending: at most five steps from BUILD, it keeps the operands, uses up the draws of its
calls, and ends as the outcome of its answer says (42_transaction_executor.md R150, R153 to R162, R170). -/
theorem attempt_ends {s : State} (hi : s.inbox = []) (hb : s.busy = true) (hp : s.phase = .build) {frame : List Byte}
    (hf : encodeRequest s.operands = .ok frame) :
    ∃ k t, k ≤ 5 ∧ Sys2Proof.core.run k s = .next t ∧ s.Attempted t ∧
      t.AttemptEnds (outcome s.params s.fc s.attemptAnswer) ∧
      t.events.filter isTx = s.events.filter isTx ++ attemptTx frame s.attemptAnswer := by
  have hc : s.operandError = none := by
    cases hc : s.operandError with
    | none => rfl
    | some e => exact absurd (hf.symm.trans ((encodeRequest_error_iff _ _).mpr hc)) (by simp)
  -- BUILD
  have h1 := (step_build hi hb hp).trans (stepBuild_eq hp hf)
  generalize hs1 : ({ s.storeTx frame with
      attempts := s.attempts + 1, phase := .flush
      events := s.events ++ [.build (s.attempts + 1) frame] } : State) = s1 at h1
  have ha1 : s1.answer = s.answer := by rw [← hs1]; rfl
  have hfr1 : s1.frame = frame := by rw [← hs1]; exact (State.storeTx_spec s frame).1
  -- FLUSH
  have h2 : step s1 = stepFlush s1 := by
    refine step_flush ?_ ?_ ?_ <;> rw [← hs1]
    · exact hi
    · exact hb
  cases hfl : s.answer with
  | fail =>
    obtain ⟨hA, hP⟩ := State.attempt_flushFail hfl
    rw [stepFlush, ha1, hfl] at h2
    refine ⟨2, _, by omega, (run_succ h1 1).trans (run_succ h2 0), ?_, ?_, ?_⟩
    · rw [← hs1]
      constructor <;> simp [hP]
    · rw [hA]
      refine attemptEnds_attemptFail ?_ _
      rw [← hs1]
      simpa using hb
    · rw [attemptFail_writes, hA, ← hs1]
      simp [isTx, attemptTx, List.filter]
  | ok x =>
  rw [stepFlush, ha1, hfl] at h2
  generalize hs2 : State.log (.flush true) { s1.popAnswer with line := [], phase := .write } = s2 at h2
  have ha2 : s2.answer = s.popAnswer.answer := by
    rw [← hs2, ← hs1]
    exact State.answer_congr (by simp) (by simp)
  have hfr2 : s2.frame = frame := by
    rw [← hs2, ← hfr1]
    simp only [State.frame, State.log_txlen, State.popAnswer_txlen]
    exact State.readBytes_congr fun j _ => State.byteAt_congr (b := .txbuf) (by simp [State.buf]) (by simp) j
  -- WRITE
  have h3 : step s2 = stepWrite s2 := by
    refine step_write ?_ ?_ ?_ <;> rw [← hs2, ← hs1]
    · simpa using hi
    · simpa using hb
    · rfl
  cases hwr : s.popAnswer.answer with
  | fail =>
    obtain ⟨hA, hP⟩ := State.attempt_writeFail hfl hwr
    rw [stepWrite, ha2, hwr, hfr2] at h3
    refine ⟨3, _, by omega, (run_succ h1 2).trans ((run_succ h2 1).trans (run_succ h3 0)), ?_, ?_, ?_⟩
    · rw [← hs2, ← hs1]
      constructor <;> simp [hP]
    · rw [hA]
      refine attemptEnds_attemptFail ?_ _
      rw [← hs2, ← hs1]
      simpa using hb
    · rw [attemptFail_writes, hA, ← hs2, ← hs1]
      simp [isTx, attemptTx, List.filter]
  | ok y =>
  rw [stepWrite, ha2, hwr, hfr2] at h3
  generalize hs3 : State.log (.tx frame true) { s2.popAnswer with phase := .read } = s3 at h3
  have ha3 : s3.answer = s.popAnswer.popAnswer.answer := by
    rw [← hs3, ← hs2, ← hs1]
    exact State.answer_congr (by simp) (by simp)
  -- READ
  have h4 : step s3 = stepRead s3 := by
    refine step_read ?_ ?_ ?_ <;> rw [← hs3, ← hs2, ← hs1]
    · simpa using hi
    · simpa using hb
    · rfl
  cases hrd : s.popAnswer.popAnswer.answer with
  | fail =>
    obtain ⟨hA, hP⟩ := State.attempt_readFail hfl hwr hrd
    rw [stepRead, ha3, hrd] at h4
    refine ⟨4, _, by omega, (run_succ h1 3).trans ((run_succ h2 2).trans ((run_succ h3 1).trans (run_succ h4 0))),
      ?_, ?_, ?_⟩
    · rw [← hs3, ← hs2, ← hs1]
      constructor <;> simp [hP]
    · rw [hA]
      refine attemptEnds_attemptFail ?_ _
      rw [← hs3, ← hs2, ← hs1]
      simpa using hb
    · rw [attemptFail_writes, hA, ← hs3, ← hs2, ← hs1]
      simp [isTx, attemptTx, List.filter]
  | ok r =>
    obtain ⟨hA, hP⟩ := State.attempt_rx hfl hwr hrd
    have hline : s3.line = [] := by rw [← hs3, ← hs2]; simp
    have hpar : s3.params = s.params := by rw [← hs3, ← hs2, ← hs1]; simp
    rw [stepRead, ha3, hrd] at h4
    simp only [hline, List.nil_append, hpar] at h4
    by_cases hov : s.params.rxMax < r.length
    · have ho : outcome s.params s.fc s.attemptAnswer = .fail .overflow := by simp only [hA, outcome, hov, if_true]
      rw [if_pos hov] at h4
      refine ⟨4, _, by omega, (run_succ h1 3).trans ((run_succ h2 2).trans ((run_succ h3 1).trans (run_succ h4 0))),
        ?_, ?_, ?_⟩
      · rw [← hs3, ← hs2, ← hs1]
        constructor <;> simp [hP]
      · rw [ho]
        refine attemptEnds_attemptFail ?_ _
        rw [← hs3, ← hs2, ← hs1]
        simpa using hb
      · rw [attemptFail_writes, hA, ← hs3, ← hs2, ← hs1]
        simp [isTx, attemptTx, List.filter]
    · rw [if_neg hov] at h4
      generalize hs4 : ({ (State.log (.rx (some r)) { s3.popAnswer with line := [] }).storeRx r with
        phase := .check } : State) = s4 at h4
      have hresp : s4.response = r := by rw [← hs4]; exact (State.storeRx_spec _ r).1
      have hfc : s4.fc = s.fc := by rw [← hs4, ← hs3, ← hs2, ← hs1]; simp
      have hpar4 : s4.params = s.params := by rw [← hs4, ← hs3, ← hs2, ← hs1]; simp
      have hb4 : s4.busy = true := by rw [← hs4, ← hs3, ← hs2, ← hs1]; simpa using hb
      have hp4 : s4.phase = .check := by rw [← hs4]
      have h5 : step s4 = stepCheck s4 := by
        refine step_check ?_ hb4 hp4
        rw [← hs4, ← hs3, ← hs2, ← hs1]
        simpa using hi
      have hc4 : s4.operandError = none := by
        rw [← hc, ← hs4, ← hs3, ← hs2, ← hs1]
        simp [State.operandError]
      obtain ⟨t, h6, hend, hev, hk⟩ := stepCheck_ends hb4 hp4 hc4 (by rw [hresp, hpar4]; exact Nat.not_lt.mp hov)
      have h5 := h5.trans h6
      refine ⟨5, t, by omega, (run_succ h1 4).trans ((run_succ h2 3).trans ((run_succ h3 2).trans
        ((run_succ h4 1).trans (run_succ h5 0)))), ?_, ?_, ?_⟩
      · obtain ⟨k0, k1, k2, k3, k4, k5, k6, k7, k8, k9, k10, k11, k12⟩ := hk
        constructor
        · rw [k0, hpar4]
        · rw [k1, ← hs4, ← hs3, ← hs2, ← hs1]; simp
        · rw [k2, ← hs4, ← hs3, ← hs2, ← hs1]; simp
        · rw [k3, ← hs4, ← hs3, ← hs2, ← hs1]; simp
        · rw [k4, ← hs4, ← hs3, ← hs2, ← hs1]; simp
        · rw [k5, ← hs4, ← hs3, ← hs2, ← hs1]; simp
        · rw [k6, ← hs4, ← hs3, ← hs2, ← hs1]; simp
        · rw [k7, ← hs4, ← hs3, ← hs2, ← hs1]; simp
        · rw [k8, ← hs4, ← hs3, ← hs2, ← hs1]; simp
        · rw [k9, ← hs4, ← hs3, ← hs2, ← hs1]; simp
        · rw [k10, ← hs4, ← hs3, ← hs2, ← hs1]; simp
        · rw [k11, hP, ← hs4, ← hs3, ← hs2, ← hs1]; simp
        · rw [k12, hP, ← hs4, ← hs3, ← hs2, ← hs1]; simp
      · rw [hA, ← hresp, ← hfc, ← hpar4]
        exact hend
      · rw [hev, hA, ← hs4, ← hs3, ← hs2, ← hs1]
        simp [isTx, attemptTx, List.filter]

end Sys2Proof.Machine
end

