-- ==== Sys2Proof/Laws/Invariant.lean ====
section
/-! SUPPORT. Each shared operation keeps the invariant `State.Inv`, and so does every instruction. -/

namespace Sys2Proof.Machine

/-! ## The buffers -/

theorem buf_storeTx (s : State) (x : List Byte) (b : Buf) :
    (s.storeTx x).buf b = if b = .txbuf then Memory.store s.txbuf 0 x else s.buf b := by cases b <;> rfl

theorem buf_storeRx (s : State) (x : List Byte) (b : Buf) :
    (s.storeRx x).buf b = if b = .rxbuf then Memory.store s.rxbuf 0 x else s.buf b := by cases b <;> rfl

theorem buf_storePayload (s : State) (x : List Byte) (b : Buf) :
    (s.storePayload x).buf b = if b = .pbuf then Memory.store s.pbuf 0 x else s.buf b := by cases b <;> rfl

theorem buf_storeHex (s : State) (x : List Byte) (b : Buf) :
    (s.storeHex x).buf b = if b = .hbuf then Memory.store s.hbuf 0 x else s.buf b := by cases b <;> rfl

theorem buf_poke (s : State) (b : Buf) (i : Nat) (v : Byte) (c : Buf) :
    (s.poke b i v).buf c = if c = b then Memory.insert (s.buf b) i v else s.buf c := by cases b <;> cases c <;> rfl

/-- The canonical form and the bound of every buffer. -/
def State.BufsOk (s : State) : Prop :=
  (∀ b, Memory.wf (s.buf b)) ∧ ∀ b, Memory.within (bufCapacity s.params b) (s.buf b)

theorem State.Inv.bufsOk {s : State} (h : s.Inv) : s.BufsOk := ⟨h.buf_wf, h.buf_within⟩

/-- One buffer stored to, within its capacity, keeps the buffers' form. -/
theorem State.BufsOk.of_store {s t : State} (h : s.BufsOk) (b : Buf) {x : List Byte}
    (hx : x.length ≤ bufCapacity s.params b)
    (ht : ∀ c, t.buf c = if c = b then Memory.store (s.buf b) 0 x else s.buf c) (hp : t.params = s.params) :
    t.BufsOk := by
  rw [State.BufsOk, hp]
  refine ⟨fun c => ?_, fun c => ?_⟩ <;> rw [ht c] <;> split
  · exact Memory.wf_store (h.1 b) 0 x
  · exact h.1 c
  · rename_i hc
    subst hc
    exact Memory.within_store (h.2 c) (by omega)
  · exact h.2 c

theorem State.BufsOk.poke {s : State} (h : s.BufsOk) {b : Buf} {i : Nat} (hi : i < bufCapacity s.params b) (v : Byte) :
    (s.poke b i v).BufsOk := by
  rw [State.BufsOk, State.poke_params]
  refine ⟨fun c => ?_, fun c => ?_⟩ <;> rw [buf_poke] <;> split
  · exact Memory.wf_insert (h.1 b) i v
  · exact h.1 c
  · rename_i hc
    subst hc
    exact Memory.within_insert (h.2 c) hi v
  · exact h.2 c

/-! ## The inputs and the channel are no part of it -/

theorem State.Inv.env {s : State} (h : s.Inv) (line : List Byte) (chan : List ChanDraw) (inbox : List Input)
    (rdata : Nat) (events : List Event) (chanDraws readDraws : Nat) :
    ({ s with
      line := line, chan := chan, inbox := inbox, rdata := rdata, events := events
      chanDraws := chanDraws, readDraws := readDraws } : State).Inv :=
  ⟨h.1, h.2, h.3, h.4, h.5, h.6, h.7, h.8, h.9, h.10, h.11, h.12, h.13, h.14, h.15, h.16, h.17, h.18, h.19⟩

theorem State.Inv.log {s : State} (h : s.Inv) (e : Event) : (s.log e).Inv := h.env ..

theorem State.Inv.popAnswer {s : State} (h : s.Inv) : s.popAnswer.Inv := by
  rw [State.popAnswer_eq]
  exact h.env ..

theorem State.Inv.answerRead {s : State} (h : s.Inv) (v : Nat) : (s.answerRead v).Inv := h.env ..

theorem State.Inv.drawRead {s : State} (h : s.Inv) (w : Nat) : (s.drawRead w).Inv := h.env ..

/-! ## Refusals, results and the end of an attempt -/

theorem State.Inv.err {s : State} (h : s.Inv) (e : ErrCode) : ({ s with err := e } : State).Inv :=
  ⟨h.1, h.2, h.3, h.4, h.5, h.6, h.7, h.8, h.9, h.10, h.11, h.12, h.13, h.14, h.15, h.16, h.17, h.18, h.19⟩

theorem State.Inv.crcreg {s : State} (h : s.Inv) (v : Half) : ({ s with crcreg := v } : State).Inv :=
  ⟨h.1, h.2, h.3, h.4, h.5, h.6, h.7, h.8, h.9, h.10, h.11, h.12, h.13, h.14, h.15, h.16, h.17, h.18, h.19⟩

theorem State.Inv.vok {s : State} (h : s.Inv) (v : Bool) : ({ s with vok := v } : State).Inv :=
  ⟨h.1, h.2, h.3, h.4, h.5, h.6, h.7, h.8, h.9, h.10, h.11, h.12, h.13, h.14, h.15, h.16, h.17, h.18, h.19⟩

/-- Every request frame fits `TXBUF`. -/
theorem State.Inv.frame_fits {s : State} (h : s.Inv) {n : Nat} (hn : n ≤ 262) : n ≤ s.params.txMax := by
  rw [h.params_legal.txMax_eq, h.params_legal.wMax_eq]
  exact hn

/-- A frame stored where one may be built. -/
theorem State.Inv.storeTx {s : State} (h : s.Inv) {x : List Byte} (hx : x.length ≤ s.params.txMax)
    (hb : s.mayBuild = true) : (s.storeTx x).Inv := by
  obtain ⟨hw, hi⟩ := h.bufsOk.of_store .txbuf hx (buf_storeTx s x) rfl
  refine ⟨h.1, h.2, h.3, h.4, fun hbusy hp => ?_, ?_, h.7, h.8, h.9, hw, hi, h.12, h.13, h.14, h.15, h.16, h.17, h.18, h.19⟩
  · simp [State.mayBuild] at hb
    rcases hb with hb | hb
    · rw [State.storeTx_busy, hb] at hbusy
      exact absurd hbusy (by decide)
    · exact absurd hb hp
  · exact hx

theorem State.Inv.storeRx {s : State} (h : s.Inv) {x : List Byte} (hx : x.length ≤ s.params.rxMax) : (s.storeRx x).Inv := by
  obtain ⟨hw, hi⟩ := h.bufsOk.of_store .rxbuf hx (buf_storeRx s x) rfl
  refine ⟨h.1, h.2, h.3, h.4, h.5, h.6, ?_, h.8, h.9, hw, hi, h.12, h.13, h.14, h.15, h.16, h.17, h.18, h.19⟩
  exact hx

theorem State.Inv.rxlenZero {s : State} (h : s.Inv) : ({ s with rxlen := 0 } : State).Inv :=
  ⟨h.1, h.2, h.3, h.4, h.5, h.6, Nat.zero_le _, h.8, h.9, h.10, h.11, h.12, h.13, h.14, h.15, h.16, h.17, h.18, h.19⟩

theorem State.Inv.storePayload {s : State} (h : s.Inv) {x : List Byte} (hx : x.length ≤ s.params.payMax) :
    (s.storePayload x).Inv := by
  obtain ⟨hw, hi⟩ := h.bufsOk.of_store .pbuf hx (buf_storePayload s x) rfl
  refine ⟨h.1, h.2, h.3, h.4, h.5, h.6, h.7, ?_, h.9, hw, hi, h.12, h.13, h.14, h.15, h.16, h.17, h.18, h.19⟩
  exact hx

theorem hexString_length (p : List Byte) : (hexString p).length = 2 + 2 * p.length := by
  have : (p.flatMap hexByte).length = 2 * p.length := by
    induction p with
    | nil => rfl
    | cons b rest ih =>
      rw [List.flatMap_cons, List.length_append, ih]
      simp [hexByte]
      omega
  simp [hexString, this]
  omega

theorem State.Inv.deliver {s : State} (h : s.Inv) {p : List Byte} (hp : p.length ≤ s.params.payMax) (d g : Bool) :
    (s.deliver (decodeValue p d g)).Inv := by
  have hint : ∀ n, (s.deliver (.int n)).Inv := fun n =>
    ⟨h.1, h.2, h.3, h.4, h.5, h.6, h.7, h.8, Nat.zero_le _, h.10, h.11, fun hc => absurd hc (by simp [State.deliver]),
      .inl rfl, h.14, h.15, h.16, h.17, h.18, BitVec.isLt _⟩
  unfold decodeValue
  split
  · exact ⟨h.1, h.2, h.3, h.4, h.5, h.6, h.7, h.8, Nat.zero_le _, h.10, h.11, fun _ => ⟨rfl, rfl⟩, .inl rfl, h.14, h.15,
      h.16, h.17, h.18, Nat.two_pow_pos _⟩
  · split
    · have hl : (hexString p).length ≤ s.params.hexMax := by
        rw [hexString_length, h.params_legal.hexMax_eq]
        omega
      obtain ⟨hw, hi⟩ := h.bufsOk.of_store .hbuf hl (buf_storeHex s (hexString p)) rfl
      refine ⟨h.1, h.2, h.3, h.4, h.5, h.6, h.7, h.8, ?_, hw, hi, fun hc => absurd hc (by simp [State.deliver]),
        .inr rfl, h.14, h.15, h.16, h.17, h.18, Nat.two_pow_pos _⟩
      exact hl
    · split
      · exact hint _
      · exact hint _

/-- A failed attempt, after BUILD. -/
theorem State.Inv.attemptFail {s : State} (h : s.Inv) (hb : s.busy = true) (c : Cause) : (s.attemptFail c).Inv := by
  have hx : s.xstate = .attempt := h.attempt_iff_busy.mpr hb
  by_cases hr : s.attempts < s.cfgBudget
  · rw [s.attemptFail_retry c hr]
    exact ⟨h.1, h.2, fun _ _ => hr, fun _ hp => absurd rfl hp, fun _ hp => absurd rfl hp, h.6, h.7, h.8, h.9, h.10, h.11,
      h.12, h.13, fun hi => absurd (hx.symm.trans hi) (by decide), fun hi => absurd (hx.symm.trans hi) (by decide),
      h.16, h.17, h.18, h.19⟩
  · rw [s.attemptFail_exhaust c hr]
    exact ⟨⟨fun hi => absurd hi (by simp), fun hi => absurd hi (by simp)⟩, fun hi => absurd hi (by simp),
      fun hi => absurd hi (by simp), fun hi => absurd hi (by simp), fun hi => absurd hi (by simp), h.6, h.7,
      Nat.zero_le _, h.9, h.10, h.11, h.12, h.13, fun hi => absurd hi (by simp), fun hi => absurd hi (by simp), h.16, h.17,
      h.18, h.19⟩

/-- `EXCODE` written while a transaction runs. -/
theorem State.Inv.excode {s : State} (h : s.Inv) (hb : s.busy = true) (v : Byte) :
    ({ s with excode := v } : State).Inv :=
  ⟨h.1, h.2, h.3, h.4, h.5, h.6, h.7, h.8, h.9, h.10, h.11, h.12, h.13,
    fun hi => absurd ((h.attempt_iff_busy.mpr hb).symm.trans hi) (by decide), h.15, h.16, h.17, h.18, h.19⟩

/-- Success, after BUILD. -/
theorem State.Inv.succeed {s : State} (h : s.Inv) (hb : s.busy = true) (hp : s.phase ≠ .build) {raw : List Byte}
    (hr : raw.length ≤ s.params.rxMax) : (s.succeed raw).Inv := by
  have hl : (stripResponse raw).length ≤ s.params.payMax := by
    rw [stripResponse_length, h.params_legal.payMax_eq]
    omega
  have k := h.storePayload hl
  exact ⟨⟨fun hi => absurd hi (by simp), fun hi => absurd hi (by simp)⟩, fun hi => absurd hi (by simp),
    fun hi => absurd hi (by simp), fun hi => absurd hi (by simp), fun hi => absurd hi (by simp), k.6, k.7,
    k.8, k.9, k.10, k.11, k.12, k.13, fun hi => absurd hi (by simp), fun _ => (h.attempts_counted hb hp).1, h.16, h.17, h.18,
    h.19⟩

/-! ## The instructions -/

theorem checkException_keeps_inv {s t : State} {code : Byte} (h : s.Inv) (he : checkException code s = .next t) : t.Inv := by
  rw [checkException_eq] at he
  injection he with he
  subst he
  split
  · rename_i hc
    have hb := ((State.checking_iff s).mp hc).1
    exact (h.excode hb code).attemptFail hb .exception
  · exact h

theorem buildFrame_keeps_inv {s t : State} {frame : List Byte} (h : s.Inv) (hl : frame.length ≤ 262)
    (he : buildFrame frame s = .next t) : t.Inv := by
  rw [buildFrame_eq] at he
  injection he with he
  subst he
  split
  · rename_i hc
    exact h.storeTx (h.frame_fits hl) hc
  · exact h

theorem decodeUnder_keeps_inv {s t : State} {d g : Bool} (h : s.Inv) (he : decodeUnder d g s = .next t) : t.Inv := by
  unfold decodeUnder at he
  split at he
  · injection he with he; exact he ▸ h
  · split at he
    · injection he with he; exact he ▸ h.err _
    · injection he with he
      subst he
      refine h.deliver ?_ d g
      rw [State.payload, State.readBytes_length]
      exact h.plen_le

theorem execEncode_keeps_inv {s t : State} (h : s.Inv) (he : execEncode s = .next t) : t.Inv := by
  unfold execEncode at he
  split at he
  · injection he with he; exact he ▸ h
  · rename_i hb
    split at he
    · injection he with he; exact he ▸ h.err _
    · rename_i frame hf
      injection he with he
      subst he
      refine State.Inv.err (h.storeTx (h.frame_fits (encodeRequest_length hf s.operands_payload_le)) ?_) .ok
      exact s.mayBuild_iff.mpr (.inl (by simpa using hb))

theorem execXact_keeps_inv {s t : State} (h : s.Inv) (he : execXact s = .next t) : t.Inv := by
  unfold execXact at he
  split at he
  · injection he with he; exact he ▸ h
  · rename_i hb
    split at he
    · injection he with he; exact he ▸ h.err _
    · rename_i hop
      dsimp only at he
      split at he
      · injection he with he
        subst he
        exact ⟨⟨fun hi => absurd hi (by simp), fun hi => absurd hi (by simp)⟩, fun hi => absurd hi (by simp),
          fun hi => absurd hi (by simp), fun hi => absurd hi (by simp), fun hi => absurd hi (by simp), h.6,
          Nat.zero_le _, Nat.zero_le _, h.9, h.10, h.11, h.12, h.13, fun hi => absurd hi (by simp),
          fun hi => absurd hi (by simp), h.16, h.17, Nat.two_pow_pos _, h.19⟩
      · rename_i hn
        injection he with he
        subst he
        refine ⟨⟨fun _ => rfl, fun _ => rfl⟩, fun _ => hop, fun _ _ => ?_, fun _ hi => absurd rfl hi,
          fun _ hi => absurd rfl hi, h.6, Nat.zero_le _, h.8, h.9, h.10, h.11, h.12, h.13, fun hi => absurd hi (by simp),
          fun hi => absurd hi (by simp), h.16, h.17, Nat.two_pow_pos _, h.19⟩
        exact Nat.pos_of_ne_zero hn

theorem execRsp_keeps_inv {s t : State} {raw : List Byte} (h : s.Inv) (hr : raw.length ≤ s.params.rxMax)
    (he : execRsp raw s = .next t) : t.Inv := by
  unfold execRsp at he
  split at he
  · rename_i hc
    obtain ⟨hb, hp⟩ := (State.checking_iff s).mp hc
    split at he
    · injection he with he; exact he ▸ h.attemptFail hb _
    · injection he with he
      subst he
      exact h.succeed hb (by rw [hp]; decide) hr
  · injection he with he; exact he ▸ h

theorem execDecrsp_keeps_inv {s t : State} (h : s.Inv) (he : execDecrsp s = .next t) : t.Inv := by
  unfold execDecrsp at he
  split at he
  · injection he with he; exact he ▸ h
  · injection he with he
    subst he
    refine State.Inv.err (h.storePayload ?_) .ok
    have := h.rxlen_le
    rw [stripResponse_length, State.response, State.readBytes_length, h.params_legal.payMax_eq]
    omega

/-- Every well-formed instruction keeps the invariant. -/
theorem exec_keeps_inv {i : Instr} {s t : State} (h : s.Inv) (hw : i.wf s.params = true) (he : exec i s = .next t) : t.Inv := by
  cases i
  case crc16 =>
    simp only [exec, execCrc16] at he
    split at he <;> injection he with he <;> subst he
    · exact h
    · exact (h.crcreg (crc16 s.response)).err .ok
  case verify =>
    simp only [exec, execVerify] at he
    split at he <;> injection he with he <;> subst he
    · exact h
    · exact (h.vok (verify s.response)).err .ok
  case encode => exact execEncode_keeps_inv h he
  case decrsp => exact execDecrsp_keeps_inv h he
  case xact => exact execXact_keeps_inv h he
  case decode => exact decodeUnder_keeps_inv h he
  case rdhN => exact buildFrame_keeps_inv h (by simp [be2]) he
  case rdhW => exact buildFrame_keeps_inv h (by simp [be2]) he
  case rdiN => exact buildFrame_keeps_inv h (by simp [be2]) he
  case rdiW => exact buildFrame_keeps_inv h (by simp [be2]) he
  case wrs slave raddr payload =>
    have := (payloadOk_iff payload).mp hw
    exact buildFrame_keeps_inv h (by simp [be2]; omega) he
  case wrm slave raddr payload =>
    have := (payloadOk_iff payload).mp hw
    exact buildFrame_keeps_inv h (by simp [be2]; omega) he
  case exc03 => exact checkException_keeps_inv h he
  case exc04 => exact checkException_keeps_inv h he
  case exc06 => exact checkException_keeps_inv h he
  case exc10 => exact checkException_keeps_inv h he
  case rsp raw => exact execRsp_keeps_inv h (by simpa [Instr.wf, responseOk] using hw) he
  case decHex => exact decodeUnder_keeps_inv h he
  case decU => exact decodeUnder_keeps_inv h he
  case decS => exact decodeUnder_keeps_inv h he

/-! ## The phases -/

/-- Between BUILD and the end of an attempt the phase may be any but BUILD, and the waiting bytes any. -/
theorem State.Inv.midAttempt {s : State} (h : s.Inv) (hb : s.busy = true) (hp : s.phase ≠ .build) {p : Phase}
    (hq : p ≠ .build) (line : List Byte) : ({ s with line := line, phase := p } : State).Inv :=
  ⟨h.1, h.2, fun _ hi => absurd hi hq, fun _ _ => h.4 hb hp, fun _ _ => h.5 hb hp, h.6, h.7, h.8, h.9, h.10, h.11, h.12, h.13,
    h.14, h.15, h.16, h.17, h.18, h.19⟩

theorem State.Inv.response_le {s : State} (h : s.Inv) : s.response.length ≤ s.params.rxMax := by
  rw [State.response, State.readBytes_length]
  exact h.rxlen_le

theorem stepBuild_keeps_inv {s t : State} (h : s.Inv) (hb : s.busy = true) (hp : s.phase = .build)
    (he : stepBuild s = .next t) : t.Inv := by
  obtain ⟨i, -, -, -, hf⟩ := State.select_of_legal (h.operands_legal hb)
  have hl := encodeRequest_length hf s.operands_payload_le
  have hm : s.mayBuild = true := s.mayBuild_iff.mpr (.inr hp)
  have k := h.storeTx (h.frame_fits hl) hm
  rw [stepBuild_eq hp hf] at he
  injection he with he
  subst he
  have hx : s.xstate = .attempt := h.attempt_iff_busy.mpr hb
  have hlt := h.attempts_remain hb hp
  refine ⟨k.1, k.2, fun _ hi => absurd hi (by simp), fun _ _ => ?_, fun _ _ => ?_, k.6, k.7, k.8, k.9, k.10, k.11, k.12,
    k.13, fun hi => absurd (hx.symm.trans hi) (by decide), fun hi => absurd (hx.symm.trans hi) (by decide), k.16, k.17,
    Nat.lt_of_le_of_lt hlt h.budget_fits, k.19⟩
  · show 0 < s.attempts + 1 ∧ s.attempts + 1 ≤ s.cfgBudget
    omega
  · show encodeRequest s.operands = .ok (s.storeTx (encode i)).frame
    rw [(State.storeTx_spec s _).1, hf]

theorem stepFlush_keeps_inv {s t : State} (h : s.Inv) (hb : s.busy = true) (hp : s.phase = .flush)
    (he : stepFlush s = .next t) : t.Inv := by
  unfold stepFlush at he
  split at he <;> injection he with he <;> subst he
  · exact (h.popAnswer.midAttempt (by simpa using hb) (by simp [hp]) (by decide : Phase.write ≠ .build) []).log (.flush true)
  · exact ((h.popAnswer).log (.flush false)).attemptFail (by simpa using hb) .transport

theorem stepWrite_keeps_inv {s t : State} (h : s.Inv) (hb : s.busy = true) (hp : s.phase = .write)
    (he : stepWrite s = .next t) : t.Inv := by
  unfold stepWrite at he
  split at he <;> injection he with he <;> subst he
  · exact (h.popAnswer.midAttempt (by simpa using hb) (by simp [hp]) (by decide : Phase.read ≠ .build)
      s.popAnswer.line).log (.tx s.frame true)
  · exact ((h.popAnswer).log (.tx s.frame false)).attemptFail (by simpa using hb) .transport

theorem stepRead_keeps_inv {s t : State} (h : s.Inv) (hb : s.busy = true) (hp : s.phase = .read)
    (he : stepRead s = .next t) : t.Inv := by
  unfold stepRead at he
  split at he
  · injection he with he
    subst he
    exact ((h.popAnswer).rxlenZero.log (.rx none)).attemptFail (by simpa using hb) .transport
  · rename_i r _
    have k : (State.log (.rx (some (s.line ++ r))) { s.popAnswer with line := [] }).Inv := by
      rw [State.popAnswer_eq]
      exact h.env ..
    dsimp only at he
    split at he <;> injection he with he <;> subst he
    · exact (k.storeRx (by simp)).attemptFail (by simpa using hb) .overflow
    · rename_i hl
      exact (k.storeRx (x := s.line ++ r) (by simpa using hl)).midAttempt (by simpa using hb) (by simp [hp])
        (by decide : Phase.check ≠ .build) []

theorem stepCheck_keeps_inv {s t : State} (h : s.Inv) (he : stepCheck s = .next t) : t.Inv :=
  exec_keeps_inv h (classify_wf h.response_le) he

/-! ## The host's accesses -/

theorem hostWrite_keeps_inv {s t : State} {reg value : Nat} (h : s.Inv) (he : hostWrite reg value s = .next t) : t.Inv := by
  unfold hostWrite at he
  split at he
  · injection he with he
    exact he ▸ h
  · rename_i hb
    have hb : s.busy = false := by simpa using hb
    -- the operand and configuration registers: but for the budget's width nothing is promised of them while idle
    have op : ∀ (a : Nat) (w : Profile) (sl f : Byte) (ra q : Half) (d : BitVec 2), a < 2 ^ s.params.budgetW →
        ({ s with cfgBudget := a, cfgWide := w, slave := sl, fc := f, raddr := ra, qty := q, desc := d } : State).Inv :=
      fun _ _ _ _ _ _ _ ha =>
        ⟨h.1, fun hi => absurd (hb.symm.trans hi) (by decide), fun hi => absurd (hb.symm.trans hi) (by decide),
          fun hi => absurd (hb.symm.trans hi) (by decide), fun hi => absurd (hb.symm.trans hi) (by decide), h.6, h.7, h.8,
          h.9, h.10, h.11, h.12, h.13, h.14, h.15, h.16, ha, h.18, h.19⟩
    split at he
    case h_2 =>
      unfold hostCommand at he
      split at he
      · rename_i i hi
        exact exec_keeps_inv h (decodeCommand_wf hi) he
      · injection he with he
        exact he ▸ h.err .illegalCmd
    case h_3 =>
      injection he with he
      subst he
      exact op _ _ _ _ _ _ _ (Nat.mod_lt _ (Nat.two_pow_pos _))
    case h_10 =>
      split at he <;> injection he with he <;> subst he
      · exact h.err .badLen
      · rename_i hv
        exact ⟨h.1, h.2, h.3, h.4, h.5, h.6, Nat.not_lt.mp hv, h.8, h.9, h.10, h.11, h.12, h.13, h.14, h.15, h.16, h.17, h.18,
          h.19⟩
    case h_11 =>
      split at he <;> injection he with he <;> subst he
      · exact h.err .badLen
      · rename_i hv
        exact ⟨h.1, h.2, h.3, h.4, h.5, h.6, h.7, Nat.not_lt.mp hv, h.9, h.10, h.11, h.12, h.13, h.14, h.15, h.16, h.17, h.18,
          h.19⟩
    all_goals
      injection he with he
      subst he
      first
        | exact h
        | exact op _ _ _ _ _ _ _ h.budget_fits

theorem hostWriteBuf_keeps_inv {s t : State} {b : Buf} {i value : Nat} (h : s.Inv)
    (he : hostWriteBuf b i value s = .next t) : t.Inv := by
  unfold hostWriteBuf at he
  split at he <;> injection he with he <;> subst he
  · rename_i hc
    simp only [Bool.and_eq_true, Bool.not_eq_true', decide_eq_true_eq] at hc
    obtain ⟨⟨hb, -⟩, hi⟩ := hc
    obtain ⟨hw, hc⟩ := h.bufsOk.poke hi (BitVec.ofNat 8 value)
    have idle : ∀ {p : Prop}, s.busy = true → p := fun hi => absurd (hb.symm.trans hi) (by decide)
    cases b <;>
      exact ⟨h.1, fun hi => idle hi, fun hi => idle hi, fun hi => idle hi, fun hi => idle hi, h.6, h.7, h.8, h.9, hw, hc,
        h.12, h.13, h.14, h.15, h.16, h.17, h.18, h.19⟩
  · exact h

theorem hostRead_keeps_inv {s t : State} {reg : Nat} (h : s.Inv) (he : hostRead reg s = .next t) : t.Inv := by
  unfold hostRead at he
  repeat' split at he
  all_goals
    injection he with he
    subst he
    first
      | exact h.drawRead _
      | exact h.answerRead _

theorem hostReadBuf_keeps_inv {s t : State} {b : Buf} {i : Nat} (h : s.Inv) (he : hostReadBuf b i s = .next t) : t.Inv := by
  unfold hostReadBuf at he
  split at he <;> injection he with he <;> subst he
  · exact h.answerRead _
  · exact h.drawRead _

theorem buffers_empty_ok (s : State) (h : ∀ b, s.buf b = []) : s.BufsOk :=
  ⟨fun b => by rw [h b]; exact Memory.wf_nil, fun b => by rw [h b]; intro c hc; exact absurd hc (by simp)⟩

end Sys2Proof.Machine
end

