-- ==== Sys2Proof/Laws/PerInstr.lean ====
section
/-! SUPPORT. The families stated per instruction: the length of every instruction's bytes (30_encoding.md R90). -/

namespace Sys2Proof

/-- How many bytes an instruction has, by the table of 30_encoding.md R90: RN 7, RW 8, WS 6 + `QTY`, WM 7 + `QTY`, a response
whole, an exception response "at least 5"; a command code or a value of `DESC` is one byte. -/
def Laws.EncodedLength.Statement (i : Instr) : Prop :=
  ∀ c : Params, i.wf c = true →
    match i with
    | .crc16 => (Sys2Proof.encode i).length = 1
    | .verify => (Sys2Proof.encode i).length = 1
    | .encode => (Sys2Proof.encode i).length = 1
    | .decrsp => (Sys2Proof.encode i).length = 1
    | .xact => (Sys2Proof.encode i).length = 1
    | .decode => (Sys2Proof.encode i).length = 1
    | .rdhN _ _ _ => (Sys2Proof.encode i).length = 7
    | .rdhW _ _ _ => (Sys2Proof.encode i).length = 8
    | .rdiN _ _ _ => (Sys2Proof.encode i).length = 7
    | .rdiW _ _ _ => (Sys2Proof.encode i).length = 8
    | .wrs _ _ payload => (Sys2Proof.encode i).length = 6 + payload.length ∧ payload.length ≤ 255
    | .wrm _ _ payload => (Sys2Proof.encode i).length = 7 + payload.length ∧ payload.length ≤ 255
    | .exc03 _ _ _ => 5 ≤ (Sys2Proof.encode i).length ∧ (Sys2Proof.encode i).length ≤ c.rxMax
    | .exc04 _ _ _ => 5 ≤ (Sys2Proof.encode i).length ∧ (Sys2Proof.encode i).length ≤ c.rxMax
    | .exc06 _ _ _ => 5 ≤ (Sys2Proof.encode i).length ∧ (Sys2Proof.encode i).length ≤ c.rxMax
    | .exc10 _ _ _ => 5 ≤ (Sys2Proof.encode i).length ∧ (Sys2Proof.encode i).length ≤ c.rxMax
    | .rsp _ => (Sys2Proof.encode i).length ≤ c.rxMax
    | .decHex _ => (Sys2Proof.encode i).length = 1
    | .decU => (Sys2Proof.encode i).length = 1
    | .decS => (Sys2Proof.encode i).length = 1

theorem excTailOk_iff (c : Params) (tail : List Byte) :
    excTailOk c tail = true ↔ 2 ≤ tail.length ∧ tail.length + 3 ≤ c.rxMax := by
  simp [excTailOk]

theorem Laws.EncodedLength.crc16 : Statement .crc16 := fun _ _ => rfl

theorem Laws.EncodedLength.verify : Statement .verify := fun _ _ => rfl

theorem Laws.EncodedLength.encode : Statement .encode := fun _ _ => rfl

theorem Laws.EncodedLength.decrsp : Statement .decrsp := fun _ _ => rfl

theorem Laws.EncodedLength.xact : Statement .xact := fun _ _ => rfl

theorem Laws.EncodedLength.decode : Statement .decode := fun _ _ => rfl

theorem Laws.EncodedLength.rdhN (slave : Byte) (raddr : Half) (qty : Byte) : Statement (.rdhN slave raddr qty) :=
  fun _ _ => sealFrame_length _

theorem Laws.EncodedLength.rdhW (slave : Byte) (raddr qty : Half) : Statement (.rdhW slave raddr qty) :=
  fun _ _ => sealFrame_length _

theorem Laws.EncodedLength.rdiN (slave : Byte) (raddr : Half) (qty : Byte) : Statement (.rdiN slave raddr qty) :=
  fun _ _ => sealFrame_length _

theorem Laws.EncodedLength.rdiW (slave : Byte) (raddr qty : Half) : Statement (.rdiW slave raddr qty) :=
  fun _ _ => sealFrame_length _

theorem Laws.EncodedLength.wrs (slave : Byte) (raddr : Half) (payload : List Byte) :
    Statement (.wrs slave raddr payload) := by
  intro c h
  refine ⟨?_, (Machine.payloadOk_iff payload).mp h⟩
  simp [Sys2Proof.encode]
  omega

theorem Laws.EncodedLength.wrm (slave : Byte) (raddr : Half) (payload : List Byte) :
    Statement (.wrm slave raddr payload) := by
  intro c h
  refine ⟨?_, (Machine.payloadOk_iff payload).mp h⟩
  simp [Sys2Proof.encode]
  omega

theorem Laws.EncodedLength.exc03 (addr code : Byte) (tail : List Byte) : Statement (.exc03 addr code tail) := by
  intro c h
  have := (excTailOk_iff c tail).mp h
  simp [Sys2Proof.encode]
  omega

theorem Laws.EncodedLength.exc04 (addr code : Byte) (tail : List Byte) : Statement (.exc04 addr code tail) := by
  intro c h
  have := (excTailOk_iff c tail).mp h
  simp [Sys2Proof.encode]
  omega

theorem Laws.EncodedLength.exc06 (addr code : Byte) (tail : List Byte) : Statement (.exc06 addr code tail) := by
  intro c h
  have := (excTailOk_iff c tail).mp h
  simp [Sys2Proof.encode]
  omega

theorem Laws.EncodedLength.exc10 (addr code : Byte) (tail : List Byte) : Statement (.exc10 addr code tail) := by
  intro c h
  have := (excTailOk_iff c tail).mp h
  simp [Sys2Proof.encode]
  omega

theorem Laws.EncodedLength.rsp (raw : List Byte) : Statement (.rsp raw) := fun _ h => of_decide_eq_true h

theorem Laws.EncodedLength.decHex (sgn : Bool) : Statement (.decHex sgn) := by
  intro _ _
  cases sgn <;> rfl

theorem Laws.EncodedLength.decU : Statement .decU := fun _ _ => rfl

theorem Laws.EncodedLength.decS : Statement .decS := fun _ _ => rfl

end Sys2Proof
end

