-- ==== Sys2Proof/Tests/Slice0.lean ====
section
/-! SUPPORT. Tests: ill-formed terms refused, words of the spec decoded, one step per instruction against the spec's vectors, and for every statement with hypotheses a witness that meets them. -/

namespace Sys2Proof.Tests

open Sys2Proof.Machine

/-! ## Ill-formed terms -/

theorem test_wf_refuses_long_payload :
    (Instr.wrs 0x01#8 0#16 (List.replicate 256 0x00#8)).wf .spec = false ∧
      (Instr.wrm 0x01#8 0#16 (List.replicate 256 0x00#8)).wf .spec = false := by
  rw [Instr.wf, Instr.wf, payloadOk, List.length_replicate]
  decide

theorem test_wf_refuses_short_exception :
    (Instr.exc03 0x01#8 0x02#8 [0xC0#8]).wf .spec = false ∧ (Instr.exc04 0x01#8 0x02#8 [0xC0#8]).wf .spec = false ∧
      (Instr.exc06 0x01#8 0x02#8 [0xC0#8]).wf .spec = false ∧ (Instr.exc10 0x01#8 0x02#8 [0xC0#8]).wf .spec = false := by decide

theorem test_wf_refuses_long_exception :
    (Instr.exc03 0x01#8 0x02#8 (List.replicate 254 0x00#8)).wf .spec = false := by
  rw [Instr.wf, excTailOk, List.length_replicate]
  decide

theorem test_wf_refuses_long_response : (Instr.rsp (List.replicate 257 0x00#8)).wf .spec = false := by
  rw [Instr.wf, responseOk, List.length_replicate]
  decide

/-! ## Decoding: words written out from the spec's encodings -/

/-- The command codes of 30_encoding.md R106; 0x00 and 0x07 are reserved (R105). -/
theorem test_decode_commands :
    decode .command [0b00000001#8] = .ok .crc16 ∧ decode .command [0b00000010#8] = .ok .verify ∧
      decode .command [0b00000011#8] = .ok .encode ∧ decode .command [0b00000100#8] = .ok .decrsp ∧
      decode .command [0b00000101#8] = .ok .xact ∧ decode .command [0b00000110#8] = .ok .decode ∧
      decode .command [0x00#8] = .error .illegalCmd ∧ decode .command [0x07#8] = .error .illegalCmd := by decide

/-- 95_test_vectors.md F1. -/
theorem test_decode_rdhN :
    decode (.request 0x169#9) [0x01#8, 0x03#8, 0x00#8, 0x00#8, 0x0A#8, 0x99#8, 0x83#8] =
      .ok (.rdhN 0x01#8 0x0000#16 0x0A#8) := by decide

/-- 95_test_vectors.md F7. -/
theorem test_decode_rdhW :
    decode (.request 0x169#9) [0x69#8, 0x03#8, 0x00#8, 0x00#8, 0xFF#8, 0xFF#8, 0x4C#8, 0x92#8] =
      .ok (.rdhW 0x69#8 0x0000#16 0xFFFF#16) := by decide

/-- 95_test_vectors.md F9. -/
theorem test_decode_rdiN :
    decode (.request 0x169#9) [0x68#8, 0x04#8, 0x00#8, 0x08#8, 0x04#8, 0x42#8, 0xFA#8] =
      .ok (.rdiN 0x68#8 0x0008#16 0x04#8) := by decide

/-- 95_test_vectors.md F8. -/
theorem test_decode_rdiW :
    decode (.request 0x169#9) [0x69#8, 0x04#8, 0x01#8, 0x00#8, 0x01#8, 0x2C#8, 0xF9#8, 0x53#8] =
      .ok (.rdiW 0x69#8 0x0100#16 0x012C#16) := by decide

/-- 95_test_vectors.md F12. -/
theorem test_decode_wrs :
    decode (.request 0x169#9) [0x01#8, 0x06#8, 0x12#8, 0x34#8, 0xAB#8, 0xEE#8, 0x32#8] =
      .ok (.wrs 0x01#8 0x1234#16 [0xAB#8]) := by decide

/-- 95_test_vectors.md F16. -/
theorem test_decode_wrm :
    decode (.request 0x169#9)
        [0x01#8, 0x10#8, 0x00#8, 0x20#8, 0x04#8, 0xDE#8, 0xAD#8, 0xBE#8, 0xEF#8, 0x6B#8, 0x29#8] =
      .ok (.wrm 0x01#8 0x0020#16 [0xDE#8, 0xAD#8, 0xBE#8, 0xEF#8]) := by decide

/-- 95_test_vectors.md Q3, Q14, Q15, and a response 0x84 to a request 0x04 (30_encoding.md R98). -/
theorem test_decode_exceptions :
    decode (.response 0x03#8) [0x01#8, 0x83#8, 0x02#8, 0xC0#8, 0xF1#8] = .ok (.exc03 0x01#8 0x02#8 [0xC0#8, 0xF1#8]) ∧
      decode (.response 0x04#8) [0x01#8, 0x84#8, 0x02#8, 0xC2#8, 0xC1#8] =
        .ok (.exc04 0x01#8 0x02#8 [0xC2#8, 0xC1#8]) ∧
      decode (.response 0x06#8) [0x01#8, 0x86#8, 0x03#8, 0x02#8, 0x61#8] =
        .ok (.exc06 0x01#8 0x03#8 [0x02#8, 0x61#8]) ∧
      decode (.response 0x10#8) [0x01#8, 0x90#8, 0x01#8, 0x8D#8, 0xC0#8] =
        .ok (.exc10 0x01#8 0x01#8 [0x8D#8, 0xC0#8]) := by decide

/-- 95_test_vectors.md Q1, Q4, and four bytes, too few for an exception response. -/
theorem test_decode_rsp :
    decode (.response 0x03#8) [0x01#8, 0x03#8, 0x02#8, 0xFF#8, 0xFE#8, 0x78#8, 0x34#8] =
        .ok (.rsp [0x01#8, 0x03#8, 0x02#8, 0xFF#8, 0xFE#8, 0x78#8, 0x34#8]) ∧
      decode (.response 0x04#8) [0x01#8, 0x83#8, 0x02#8, 0xC0#8, 0xF1#8] =
        .ok (.rsp [0x01#8, 0x83#8, 0x02#8, 0xC0#8, 0xF1#8]) ∧
      decode (.response 0x03#8) [0x01#8, 0x83#8, 0x02#8, 0xC0#8] = .ok (.rsp [0x01#8, 0x83#8, 0x02#8, 0xC0#8]) := by decide

/-- 30_encoding.md R107: bit 0 `ENC`, bit 1 `SGN`. -/
theorem test_decode_modes :
    decode .mode [0b00#8] = .ok (.decHex false) ∧ decode .mode [0b10#8] = .ok (.decHex true) ∧
      decode .mode [0b01#8] = .ok .decU ∧ decode .mode [0b11#8] = .ok .decS ∧
      decode .mode [0b100#8] = .error .badLength := by decide

/-- A request whose CRC bytes are swapped (95_test_vectors.md F1), or with function code 0x05 (F19), is refused. -/
theorem test_decode_refuses_requests :
    decode (.request 0x169#9) [0x01#8, 0x03#8, 0x00#8, 0x00#8, 0x0A#8, 0x83#8, 0x99#8] = .error .badCrc ∧
      decode (.request 0x169#9) (sealFrame [0x01#8, 0x05#8, 0x00#8, 0x00#8, 0x01#8]) = .error .illegalFc := by decide

/-- The opcode table's words: a command, a read row of 7 and of 8 bytes, an exception row, RSP, a mode. -/
theorem test_table_words :
    decodeTableWord 8 0x05 = some .xact ∧ decodeTableWord 56 0x03 = some (.rdhN 0x00#8 0#16 0x00#8) ∧
      decodeTableWord 64 0x04 = some (.rdiW 0x00#8 0#16 0#16) ∧
      decodeTableWord 40 0x86 = some (.exc06 0x00#8 0x00#8 [0x00#8, 0x00#8]) ∧
      decodeTableWord 40 0x00 = some (.rsp [0x00#8, 0x00#8, 0x00#8, 0x00#8, 0x00#8]) ∧
      decodeTableWord 2 0x03 = some .decS := by decide

/-! ## The CRC table: spot checks of 95_test_vectors.md section 2.1 -/

theorem test_crc_table :
    crcTable 0x00#8 = 0x0000#16 ∧ crcTable 0x01#8 = 0xC0C1#16 ∧ crcTable 0x80#8 = 0xA001#16 ∧
      crcTable 0xFF#8 = 0x4040#16 ∧ crcTable 0x7D#8 = 0x21C0#16 := by decide

theorem test_crc_check_string :
    crc16 [0x31#8, 0x32#8, 0x33#8, 0x34#8, 0x35#8, 0x36#8, 0x37#8, 0x38#8, 0x39#8] = 0x4B37#16 := by decide

/-! ## One step per instruction -/

/-- The state an outcome gives, reset where it stops. -/
def after : Host.Outcome State Fault Refusal → State
  | .next t => t
  | .fault _ => State.reset
  | .refused _ => State.reset

/-- The state after reset with a response in `RXBUF`. -/
def holding (raw : List Byte) : State := State.reset.storeRx raw

/-- The state after reset with operands in the operand registers. -/
def asking (slave fc : Byte) (raddr qty : Half) (payload : List Byte) : State :=
  { State.reset with
    slave := slave, fc := fc, raddr := raddr, qty := qty
    wbuf := Memory.store [] 0 payload }

/-- A transaction of `n` attempts running in a phase, in its `k`-th attempt, with a response in `RXBUF`. -/
def running (p : Phase) (k n : Nat) (raw : List Byte) : State :=
  { (asking 0x01#8 0x03#8 0#16 0x000A#16 []).storeRx raw with
    busy := true, xstate := .attempt, phase := p, attempts := k, cfgBudget := n }

/-- 95_test_vectors.md Q1. -/
def good : List Byte := [0x01#8, 0x03#8, 0x02#8, 0xFF#8, 0xFE#8, 0x78#8, 0x34#8]

/-- 95_test_vectors.md Q7. -/
def badCrc : List Byte := [0x01#8, 0x03#8, 0x02#8, 0xFF#8, 0xFE#8, 0x34#8, 0x78#8]

/-- 95_test_vectors.md Q3. -/
def refusal : List Byte := [0x01#8, 0x83#8, 0x02#8, 0xC0#8, 0xF1#8]

/-- The running transaction of the witnesses, in a phase, with the draws `chan` of the channel's calls to come. -/
def busyIn (p : Phase) (chan : List ChanDraw) : State := { running p 0 1 good with chan := chan }

/-- 95_test_vectors.md S1. -/
theorem test_crc16 :
    (after (exec .crc16 (holding [0x01#8, 0x03#8, 0x00#8, 0x00#8, 0x00#8, 0x0A#8]))).crcreg = 0xCDC5#16 := by decide

/-- 95_test_vectors.md S1: low byte first is true, the other order false. -/
theorem test_verify :
    (after (exec .verify (holding [0x01#8, 0x03#8, 0x00#8, 0x00#8, 0x00#8, 0x0A#8, 0xC5#8, 0xCD#8]))).vok = true ∧
      (after (exec .verify (holding [0x01#8, 0x03#8, 0x00#8, 0x00#8, 0x00#8, 0x0A#8, 0xCD#8, 0xC5#8]))).vok = false := by
  decide

/-- 95_test_vectors.md F11. -/
theorem test_encode :
    (after (exec .encode (asking 0x01#8 0x06#8 0x0010#16 2#16 [0x12#8, 0x34#8]))).frame =
      [0x01#8, 0x06#8, 0x00#8, 0x10#8, 0x12#8, 0x34#8, 0x85#8, 0x78#8] := by decide

/-- 95_test_vectors.md F5: a narrow read of 256 is refused, `TXLEN` unchanged. -/
theorem test_encode_refused :
    (after (exec .encode (asking 0x01#8 0x03#8 0x0000#16 256#16 []))).err = .badQty ∧
      (after (exec .encode (asking 0x01#8 0x03#8 0x0000#16 256#16 []))).txlen = 0 := by decide

/-- 95_test_vectors.md P5: DECRSP strips bytes that just failed VERIFY. -/
theorem test_decrsp :
    (after (exec .decrsp (holding [0x01#8, 0x03#8, 0x00#8, 0x00#8, 0x00#8, 0x0A#8, 0xCD#8, 0xC5#8]))).payload =
      [0x00#8, 0x00#8, 0x0A#8] := by decide

/-- 95_test_vectors.md P6: XACT with `FC` 0 is refused with status 0x40; with a budget of 0 it ends with status 0x06. -/
theorem test_xact :
    (after (exec .xact State.reset)).status = 0x40#8 ∧
      (after (exec .xact (asking 0x01#8 0x03#8 0#16 0#16 []))).status = 0x06#8 := by decide

/-- 42_transaction_executor.md R151: with a budget XACT starts the transaction: `STATUS` bit 0 is 1, bits 2:1 are 01. -/
theorem test_xact_starts :
    (after (exec .xact { asking 0x01#8 0x03#8 0#16 0#16 [] with cfgBudget := 3 })).status = 0x03#8 := by decide

/-- 95_test_vectors.md V9: `DESC` 3 on FF FE. -/
theorem test_decode :
    (after (exec .decode { State.reset.storePayload [0xFF#8, 0xFE#8] with desc := 3#2 })).dval =
      0xFFFFFFFFFFFFFFFE := by decide

/-- 95_test_vectors.md F3. -/
theorem test_rdhN :
    (after (exec (.rdhN 0x01#8 0x0102#16 0x03#8) State.reset)).frame =
      [0x01#8, 0x03#8, 0x01#8, 0x02#8, 0x03#8, 0x09#8, 0x25#8] := by decide

/-- 95_test_vectors.md F6. -/
theorem test_rdhW :
    (after (exec (.rdhW 0x69#8 0x0000#16 0x0002#16) State.reset)).frame =
      [0x69#8, 0x03#8, 0x00#8, 0x00#8, 0x00#8, 0x02#8, 0xCC#8, 0xE3#8] := by decide

/-- 95_test_vectors.md F10. -/
theorem test_rdiN :
    (after (exec (.rdiN 0xFF#8 0x00FF#16 0x01#8) State.reset)).frame =
      [0xFF#8, 0x04#8, 0x00#8, 0xFF#8, 0x01#8, 0xB1#8, 0x14#8] := by decide

/-- 95_test_vectors.md F8. -/
theorem test_rdiW :
    (after (exec (.rdiW 0x69#8 0x0100#16 0x012C#16) State.reset)).frame =
      [0x69#8, 0x04#8, 0x01#8, 0x00#8, 0x01#8, 0x2C#8, 0xF9#8, 0x53#8] := by decide

/-- 95_test_vectors.md F13: the empty payload. -/
theorem test_wrs :
    (after (exec (.wrs 0x01#8 0x0000#16 []) State.reset)).frame =
      [0x01#8, 0x06#8, 0x00#8, 0x00#8, 0xE1#8, 0xD9#8] := by decide

/-- 95_test_vectors.md F16. -/
theorem test_wrm :
    (after (exec (.wrm 0x01#8 0x0020#16 [0xDE#8, 0xAD#8, 0xBE#8, 0xEF#8]) State.reset)).frame =
      [0x01#8, 0x10#8, 0x00#8, 0x20#8, 0x04#8, 0xDE#8, 0xAD#8, 0xBE#8, 0xEF#8, 0x6B#8, 0x29#8] := by decide

/-- 95_test_vectors.md Q3, in the last of one attempt (X2's end: cause 5, `EXCODE` 2, status EXHAUSTED). -/
theorem test_exc03 :
    (after (exec (.exc03 0x01#8 0x02#8 [0xC0#8, 0xF1#8]) (running .check 1 1 refusal))).excode = 0x02#8 ∧
      (after (exec (.exc03 0x01#8 0x02#8 [0xC0#8, 0xF1#8]) (running .check 1 1 refusal))).status = 0x06#8 := by decide

/-- 95_test_vectors.md P2's third response, with attempts remaining: the next attempt begins. -/
theorem test_exc04 :
    (after (exec (.exc04 0x68#8 0x02#8 [0x12#8, 0xDD#8]) (running .check 1 2 refusal))).cause = .exception ∧
      (after (exec (.exc04 0x68#8 0x02#8 [0x12#8, 0xDD#8]) (running .check 1 2 refusal))).phase = .build := by decide

/-- 95_test_vectors.md Q14. -/
theorem test_exc06 :
    (after (exec (.exc06 0x01#8 0x03#8 [0x02#8, 0x61#8]) (running .check 1 1 refusal))).excode = 0x03#8 := by decide

/-- 95_test_vectors.md Q15. -/
theorem test_exc10 :
    (after (exec (.exc10 0x01#8 0x01#8 [0x8D#8, 0xC0#8]) (running .check 1 1 refusal))).excode = 0x01#8 := by decide

/-- 95_test_vectors.md Q1. -/
theorem test_rsp_accepted :
    (after (exec (.rsp good) (running .check 1 1 good))).payload = [0xFF#8, 0xFE#8] ∧
      (after (exec (.rsp good) (running .check 1 1 good))).status = 0x04#8 := by decide

/-- 95_test_vectors.md Q7 and Q8: a wrong CRC; two bytes are SHORT although their CRC is right. -/
theorem test_rsp_failed :
    (after (exec (.rsp badCrc) (running .check 1 1 badCrc))).cause = .crc ∧
      (after (exec (.rsp [0xFF#8, 0xFF#8]) (running .check 1 1 [0xFF#8, 0xFF#8]))).cause = .short := by decide

/-- 95_test_vectors.md V3 and V4: `SGN` is ignored. -/
theorem test_decHex :
    (after (exec (.decHex false) (State.reset.storePayload [0x0A#8, 0x0B#8]))).readBytes .hbuf 6 =
        [0x30#8, 0x78#8, 0x30#8, 0x41#8, 0x30#8, 0x42#8] ∧
      (after (exec (.decHex true) (State.reset.storePayload [0x0A#8, 0x0B#8]))).hlen = 6 := by decide

/-- 95_test_vectors.md V2. -/
theorem test_decU : (after (exec .decU (State.reset.storePayload [0xFF#8]))).dval = 0x00000000000000FF := by decide

/-- 95_test_vectors.md V12. -/
theorem test_decS :
    (after (exec .decS (State.reset.storePayload [0xFF#8, 0x00#8, 0x00#8]))).dval = 0xFFFFFFFFFFFF0000 := by decide

/-- The first instruction after reset, placed: F1's row runs as the BUILD step of attempt 1. -/
theorem test_placed_row_runs :
    (after (step (State.reset.withFetchWord 56 0x03))).frame = sealFrame [0x00#8, 0x03#8, 0x00#8, 0x00#8, 0x00#8] ∧
      (after (step (State.reset.withFetchWord 8 0x01))).crcreg = 0xFFFF#16 := by decide

/-- 20_memory.md R66: a flush that is ok uses up its own draw, so that after a reset the next flush may fail. -/
theorem test_flush_uses_its_draw :
    (after (step (busyIn .flush [.ok [], .fail]))).answer = .fail ∧
      (after (step { busyIn .write [.fail] with inbox := [.reset] })).answer = .fail := by decide

/-- 00_scope.md R5, 43_register_decoder.md R191: with a larger `P_VAL_BYTES` a payload of 9 bytes is decoded; with a wider
`P_BUDGET_W` a budget of 256 is held. -/
theorem test_parameters :
    (after (exec .decU { State.reset.storePayload [0x01#8, 0#8, 0#8, 0#8, 0#8, 0#8, 0#8, 0#8, 0x02#8] with
      params := { Params.spec with valBytes := 9 } })).dval = 2 ^ 64 + 2 ∧
      (after (step { State.reset with
        params := { Params.spec with budgetW := 16 }, inbox := [.write 0x02 256] })).cfgBudget = 256 := by decide

/-- 95_test_vectors.md A8, A9: `DESC` and `CFG_WIDE` are truncated. -/
theorem test_host_truncates :
    (after (step { State.reset with inbox := [.write 0x08 0xFF] })).desc = 3#2 ∧
      (after (step { State.reset with inbox := [.write 0x03 0x3FF] })).cfgWide = 0x1FF#9 := by decide

/-! ## Witnesses: for every statement with hypotheses, states and operands that meet them, each clause at a boundary -/

theorem witness_DecodeOfEncode :
    (Instr.xact.wf .spec = true ∧ Instr.xact.inSpace .command = true) ∧
      ((Instr.rdhW 0x69#8 0#16 0xFFFF#16).wf .spec = true ∧
        (Instr.rdhW 0x69#8 0#16 0xFFFF#16).inSpace (.request 0x169#9) = true) ∧
      ((Instr.exc03 0x01#8 0x02#8 [0xC0#8, 0xF1#8]).wf .spec = true ∧
        (Instr.exc03 0x01#8 0x02#8 [0xC0#8, 0xF1#8]).inSpace (.response 0x03#8) = true) ∧
      (Instr.decS.wf .spec = true ∧ Instr.decS.inSpace .mode = true) := by decide

theorem witness_EncodeOfDecode :
    decode .mode [0x02#8] = .ok (.decHex true) ∧ decode .command [0x06#8] = .ok .decode ∧
      decode (.response 0x03#8) [] = .ok (.rsp []) ∧
      decode (.request 0x169#9) [0x01#8, 0x06#8, 0x00#8, 0x00#8, 0xE1#8, 0xD9#8] = .ok (.wrs 0x01#8 0#16 []) := by decide

theorem witness_OperandsSelectTheirFrame :
    selectRequest (asking 0x01#8 0x03#8 0#16 255#16 []).operands = .ok (.rdhN 0x01#8 0#16 0xFF#8) ∧
      selectRequest (asking 0x01#8 0x03#8 0#16 256#16 []).operands = .error .badQty ∧
      selectRequest State.reset.operands = .error .illegalFc := ⟨rfl, rfl, rfl⟩

theorem witness_VerifyComparesTrailingBytes :
    ([0x00#8] : List Byte).length < 2 ∧ verify (([] : List Byte) ++ [0xFF#8, 0xFF#8]) = true := by decide

theorem witness_Crc16CommandResult :
    (busyIn .read []).busy = true ∧ (holding good).busy = false ∧ State.reset.busy = false ∧ State.reset.rxlen = 0 := by
  decide

theorem witness_VerifyCommandResult :
    (busyIn .read []).busy = true ∧ (holding good).busy = false ∧
      (holding [0x00#8]).busy = false ∧ (holding [0x00#8]).rxlen < 2 ∧
      (holding [0xFF#8, 0xFF#8]).busy = false ∧ (holding [0xFF#8, 0xFF#8]).rxlen = 2 ∧
      (holding [0xFF#8, 0xFF#8]).byteAt .rxbuf 0 = 0xFF#8 ∧ (holding [0xFF#8, 0xFF#8]).byteAt .rxbuf 1 = 0xFF#8 := by decide

theorem witness_ReadRowsBuildTheirFrame :
    (State.reset.busy = false ∨ State.reset.phase = .build) ∧
      ((busyIn .build []).busy = false ∨ (busyIn .build []).phase = .build) ∧
      (busyIn .flush []).busy = true ∧ (busyIn .flush []).phase ≠ .build := by decide

theorem witness_WriteRowsBuildTheirFrame :
    (List.replicate 255 (0x00#8 : Byte)).length ≤ 255 ∧ (State.reset.busy = false ∨ State.reset.phase = .build) ∧
      (busyIn .check []).busy = true ∧ (busyIn .check []).phase ≠ .build := by
  refine ⟨?_, by decide⟩
  rw [List.length_replicate]

theorem witness_OperandChecks :
    checkOperands 0x05#8 0#16 0x01#8 0x169#9 = some .illegalFc ∧ checkOperands 0x06#8 256#16 0x69#8 0x169#9 = some .badQty ∧
      checkOperands 0x03#8 256#16 0x01#8 0x169#9 = some .badQty ∧ checkOperands 0x10#8 255#16 0x01#8 0x169#9 = none ∧
      isWide 0x69#8 0x04#8 0x169#9 = true := by decide

theorem witness_EncodeCommandResult :
    (busyIn .build []).busy = true ∧
      (State.reset.busy = false ∧ checkOperands State.reset.fc State.reset.qty State.reset.slave State.reset.cfgWide =
        some .illegalFc) ∧
      (asking 0x01#8 0x03#8 0#16 255#16 []).busy = false ∧
      checkOperands (asking 0x01#8 0x03#8 0#16 255#16 []).fc (asking 0x01#8 0x03#8 0#16 255#16 []).qty
        (asking 0x01#8 0x03#8 0#16 255#16 []).slave (asking 0x01#8 0x03#8 0#16 255#16 []).cfgWide = none := by decide

theorem witness_EncodeRunsTheSelectedRow :
    (asking 0x69#8 0x04#8 0#16 256#16 []).busy = false ∧
      selectRequest (asking 0x69#8 0x04#8 0#16 256#16 []).operands = .ok (.rdiW 0x69#8 0#16 256#16) := ⟨rfl, rfl⟩

theorem witness_DecrspCommandResult :
    (busyIn .read []).busy = true ∧ (holding good).busy = false ∧ ({ State.reset with rxlen := 5 } : State).busy = false ∧
      ({ State.reset with rxlen := 5 } : State).rxlen ≤ 5 := by decide

theorem witness_XactCommandResult :
    (busyIn .build []).busy = true ∧
      (State.reset.busy = false ∧ checkOperands State.reset.fc State.reset.qty State.reset.slave State.reset.cfgWide =
        some .illegalFc) ∧
      checkOperands 0x03#8 0x000A#16 0x01#8 0x169#9 = none ∧
      (asking 0x01#8 0x03#8 0#16 0x000A#16 []).cfgBudget = 0 ∧
      ({ asking 0x01#8 0x03#8 0#16 0x000A#16 [] with cfgBudget := 1 } : State).cfgBudget ≠ 0 ∧
      ({ asking 0x01#8 0x03#8 0#16 0x000A#16 [] with cfgBudget := 1 } : State).busy = false := by decide

theorem witness_ExceptionRowsFailTheAttempt :
    (running .check 1 2 refusal).busy = true ∧ (running .check 1 2 refusal).phase = .check ∧
      (running .check 2 2 refusal).busy = true ∧ (running .check 2 2 refusal).phase = .check ∧
      State.reset.busy = false ∧ (busyIn .read []).phase ≠ .check := by decide

/-- Lengths 0, 1, 4, 5 with a wrong CRC (Q17), 5 with a right one (Q2). -/
theorem witness_ResponseRowEndsTheAttempt :
    (running .check 1 1 []).busy = true ∧ (running .check 1 1 []).phase = .check ∧
      ([] : List Byte).length = 0 ∧ 1 ≤ ([0x01#8] : List Byte).length ∧ (good.take 4).length < 5 ∧
      (5 ≤ (List.replicate 5 (0x00#8 : Byte)).length ∧ verify (List.replicate 5 0x00#8) = false) ∧
      (5 ≤ ([0x01#8, 0x03#8, 0x00#8, 0x20#8, 0xF0#8] : List Byte).length ∧
        verify [0x01#8, 0x03#8, 0x00#8, 0x20#8, 0xF0#8] = true) ∧
      State.reset.busy = false ∧ (busyIn .read []).phase ≠ .check := by decide

theorem witness_BuildStepResult :
    (busyIn .build []).inbox = [] ∧ (busyIn .build []).busy = true ∧ (busyIn .build []).phase = .build ∧
      checkOperands (busyIn .build []).fc (busyIn .build []).qty (busyIn .build []).slave (busyIn .build []).cfgWide =
        none := by decide

theorem witness_FlushStepResult :
    (busyIn .flush [.ok []]).inbox = [] ∧ (busyIn .flush [.ok []]).busy = true ∧
      (busyIn .flush [.ok []]).phase = .flush ∧ (busyIn .flush [.ok []]).answer ≠ .fail ∧
      (busyIn .flush [.fail]).answer = .fail := by decide

theorem witness_WriteStepResult :
    (busyIn .write [.ok []]).inbox = [] ∧ (busyIn .write [.ok []]).busy = true ∧
      (busyIn .write [.ok []]).phase = .write ∧ (busyIn .write [.ok []]).answer ≠ .fail ∧
      (busyIn .write [.fail]).answer = .fail := by decide

/-- Reads that fail, of 257 bytes and of 256. -/
theorem witness_ReadStepResult :
    (busyIn .read [.fail]).inbox = [] ∧ (busyIn .read [.fail]).busy = true ∧
      (busyIn .read [.fail]).phase = .read ∧ (busyIn .read [.fail]).answer = .fail ∧
      ((busyIn .read [.ok (List.replicate 257 0x00#8)]).answer = .ok (List.replicate 257 0x00#8) ∧
        (busyIn .read [.ok (List.replicate 257 0x00#8)]).params.rxMax <
          ((busyIn .read [.ok (List.replicate 257 0x00#8)]).line ++ List.replicate 257 (0x00#8 : Byte)).length) ∧
      ((busyIn .read [.ok (List.replicate 256 0x00#8)]).answer = .ok (List.replicate 256 0x00#8) ∧
        ((busyIn .read [.ok (List.replicate 256 0x00#8)]).line ++ List.replicate 256 (0x00#8 : Byte)).length ≤
          (busyIn .read [.ok (List.replicate 256 0x00#8)]).params.rxMax) := by
  refine ⟨rfl, rfl, rfl, rfl, ⟨rfl, ?_⟩, rfl, ?_⟩
  · show 256 < (([] : List Byte) ++ List.replicate 257 0x00#8).length
    rw [List.nil_append, List.length_replicate]
    decide
  · show (([] : List Byte) ++ List.replicate 256 0x00#8).length ≤ 256
    rw [List.nil_append, List.length_replicate]

/-- The five clauses: Q9, four bytes of Q1, Q3, Q7, Q1. -/
theorem witness_CheckStepTests :
    ((running .check 1 1 good).inbox = [] ∧ (running .check 1 1 good).busy = true ∧
      (running .check 1 1 good).phase = .check ∧ (running .check 1 1 good).operandError = none) ∧
      (running .check 1 1 []).response.length = 0 ∧
      (1 ≤ (running .check 1 1 (good.take 4)).response.length ∧
        (running .check 1 1 (good.take 4)).response.length < 5) ∧
      (5 ≤ (running .check 1 1 refusal).response.length ∧
        (running .check 1 1 refusal).response[1]? = some ((running .check 1 1 refusal).fc ||| 0x80#8)) ∧
      (5 ≤ (running .check 1 1 badCrc).response.length ∧
        (running .check 1 1 badCrc).response[1]? ≠ some ((running .check 1 1 badCrc).fc ||| 0x80#8) ∧
        verify (running .check 1 1 badCrc).response = false) ∧
      (5 ≤ (running .check 1 1 good).response.length ∧
        (running .check 1 1 good).response[1]? ≠ some ((running .check 1 1 good).fc ||| 0x80#8) ∧
        verify (running .check 1 1 good).response = true) := by decide

/-- An accepted and a failed response. -/
theorem witness_CheckSucceedsIffAccepted :
    (running .check 1 1 good).inbox = [] ∧ (running .check 1 1 good).busy = true ∧
      (running .check 1 1 good).phase = .check ∧ (running .check 1 1 good).operandError = none ∧
      (∃ t, step (running .check 1 1 good) = .next t) ∧ (∃ t, step (running .check 1 1 badCrc) = .next t) ∧
      accepted (running .check 1 1 good).response (running .check 1 1 good).fc = true ∧
      accepted (running .check 1 1 badCrc).response (running .check 1 1 badCrc).fc = false :=
  ⟨rfl, rfl, rfl, rfl, (exec_goes _ _).imp fun _ h => (step_check rfl rfl rfl).trans h,
    (exec_goes _ _).imp fun _ h => (step_check rfl rfl rfl).trans h, by decide, by decide⟩

/-- An idle block with legal operands, a budget of 2 and the draws of the calls to come. -/
def ready (chan : List ChanDraw) : State :=
  { asking 0x01#8 0x03#8 0#16 0x000A#16 [] with cfgBudget := 2, chan := chan }

/-- Both results of `transact`: success at attempt 2, exhaustion with a flush that fails. -/
theorem witness_TransactionIsTransact :
    (ready [.ok [], .ok [], .ok badCrc, .ok [], .ok [], .ok good]).inbox = [] ∧
      (ready [.ok [], .ok [], .ok badCrc, .ok [], .ok [], .ok good]).busy = false ∧
      (ready [.ok [], .ok [], .ok badCrc, .ok [], .ok [], .ok good]).operandError = none ∧
      (∃ t, exec .xact (ready [.ok [], .ok [], .ok badCrc, .ok [], .ok [], .ok good]) = .next t) ∧
      transact .spec 0x03#8 ((ready [.ok [], .ok [], .ok badCrc, .ok [], .ok [], .ok good]).upcoming 2) =
        .success 2 [0xFF#8, 0xFE#8] ∧
      transact .spec 0x03#8 ((ready [.ok [], .ok [], .ok badCrc, .fail]).upcoming 2) = .exhausted 2 .transport :=
  ⟨rfl, rfl, rfl, ⟨_, rfl⟩, by decide, by decide⟩

/-- A state in BUILD of attempt 1 that meets the invariant. -/
theorem witness_busy_invariant : ({ busyIn .build [] with rxbuf := [] } : State).Inv := by
  obtain ⟨hw, hc⟩ := buffers_empty_ok { busyIn .build [] with rxbuf := [] } (by intro b; cases b <;> rfl)
  exact ⟨by decide, fun _ => rfl, fun _ _ => by decide, fun _ h => absurd rfl h, fun _ h => absurd rfl h, by decide, by decide,
    by decide, by decide, hw, hc, fun _ => by decide, .inl rfl, fun h => absurd h (by decide), fun h => absurd h (by decide),
    ⟨rfl, rfl, rfl, rfl⟩, by decide, by decide, by decide⟩

theorem witness_TransactionEnds :
    ({ busyIn .build [] with rxbuf := [] } : State).Inv ∧ ({ busyIn .build [] with rxbuf := [] } : State).inbox = [] ∧
      ({ busyIn .build [] with rxbuf := [] } : State).busy = true := ⟨witness_busy_invariant, rfl, rfl⟩

theorem witness_ExhaustionMakesExactlyNAttempts :
    (ready [.ok [], .ok [], .ok badCrc, .ok [], .ok [], .ok []]).inbox = [] ∧
      (ready [.ok [], .ok [], .ok badCrc, .ok [], .ok [], .ok []]).busy = false ∧
      (∃ frame, encodeRequest (ready [.ok [], .ok [], .ok badCrc, .ok [], .ok [], .ok []]).operands = .ok frame) ∧
      (∃ t, exec .xact (ready [.ok [], .ok [], .ok badCrc, .ok [], .ok [], .ok []]) = .next t) ∧
      ∀ a ∈ (ready [.ok [], .ok [], .ok badCrc, .ok [], .ok [], .ok []]).upcoming 2,
        ∃ r, a = .rx r ∧ accepted r 0x03#8 = false := by
  refine ⟨rfl, rfl, ⟨_, rfl⟩, ⟨_, rfl⟩, fun a ha => ?_⟩
  have h : a = .rx badCrc ∨ a = .rx [] := by
    have hm : a ∈ [ChanAnswer.rx badCrc, ChanAnswer.rx []] := ha
    simpa using hm
  rcases h with rfl | rfl
  · exact ⟨badCrc, rfl, by decide⟩
  · exact ⟨[], rfl, by decide⟩

theorem witness_StaleBytesNeverMatter :
    (busyIn .build []).inbox = [] ∧ (busyIn .build []).busy = true ∧ (busyIn .build []).phase = .build := by decide

theorem witness_NeverStops : ({ busyIn .build [] with rxbuf := [] } : State).Inv := witness_busy_invariant

theorem witness_StepKeepsInvariant :
    ({ busyIn .build [] with rxbuf := [] } : State).Inv ∧
      ∃ t, step { busyIn .build [] with rxbuf := [] } = .next t :=
  ⟨witness_busy_invariant, _, (step_build rfl rfl rfl).trans (stepBuild_eq rfl rfl)⟩

/-- A FLUSH step, and a CRC16 command. -/
theorem witness_OnlyEncodeAndBuildWriteTheFrame :
    (∃ t, step (busyIn .flush [.ok []]) = .next t) ∧ (busyIn .flush [.ok []]).inbox.head? ≠ some .reset ∧
      ¬ ((busyIn .flush [.ok []]).busy = true ∧ (busyIn .flush [.ok []]).phase = .build) ∧
      ¬ ((busyIn .flush [.ok []]).busy = false ∧
        ∃ v, (busyIn .flush [.ok []]).inbox.head? = some (.write 0x00 v) ∧ v % 256 = 0x03) :=
  ⟨⟨_, rfl⟩, by decide, by decide, fun h => absurd h.1 (by decide)⟩

theorem witness_OperandsFrozenWhileBusy :
    (busyIn .flush [.ok []]).busy = true ∧ (∃ t, step (busyIn .flush [.ok []]) = .next t) ∧
      (busyIn .flush [.ok []]).inbox.head? ≠ some .reset := ⟨rfl, ⟨_, rfl⟩, by decide⟩

theorem witness_NoInstructionWritesOperands : ∃ t, exec .encode (ready []) = .next t := exec_goes _ _

/-- A flag of each kind changes. -/
theorem witness_FlagsWrittenOnlyByTheirInstructions :
    (after (exec .verify (holding good))).vok ≠ (holding good).vok ∧
      (after (exec .crc16 (holding good))).crcreg ≠ (holding good).crcreg ∧
      (after (exec .decU (State.reset.storePayload [0xFF#8]))).dvalid ≠ (State.reset.storePayload [0xFF#8]).dvalid ∧
      (after (exec .xact (ready []))).busy ≠ (ready []).busy ∧
      (after (exec (.rsp good) (running .check 1 1 good))).xstate ≠ (running .check 1 1 good).xstate ∧
      (after (exec .xact State.reset)).err ≠ State.reset.err := by decide

theorem witness_CommandsIgnoredWhileBusy : isCommand .decS = true ∧ (busyIn .read []).busy = true := by decide

/-- A command, a BUILD and a CHECK. -/
theorem witness_StepRunsTheDecodedInstruction :
    (({ State.reset with inbox := [.write 0x00 0x05] } : State).busy = false ∧
      decode .command [BitVec.ofNat 8 0x05] = .ok .xact) ∧
      ((busyIn .build []).busy = true ∧ (busyIn .build []).inbox = [] ∧ (busyIn .build []).phase = .build ∧
        selectRequest (busyIn .build []).operands = .ok (.rdhN 0x01#8 0#16 0x0A#8) ∧
        ∃ t, exec (.rdhN 0x01#8 0#16 0x0A#8) { busyIn .build [] with attempts := (busyIn .build []).attempts + 1 } =
          .next t) ∧
      ((running .check 1 1 refusal).busy = true ∧ (running .check 1 1 refusal).inbox = [] ∧
        (running .check 1 1 refusal).phase = .check ∧
        decode (.response (running .check 1 1 refusal).fc) (running .check 1 1 refusal).response =
          .ok (.exc03 0x01#8 0x02#8 [0xC0#8, 0xF1#8])) :=
  ⟨⟨rfl, rfl⟩, ⟨rfl, rfl, rfl, rfl, exec_goes _ _⟩, rfl, rfl, rfl, by decide⟩

/-- Every clause: busy, empty, hex of 251 bytes, decimal of 9, of 8 unsigned, of 1 signed. -/
theorem witness_DecodeCommandResult :
    (busyIn .read []).busy = true ∧ State.reset.busy = false ∧ State.reset.plen = 0 ∧
      (({ State.reset with plen := 251 } : State).plen ≠ 0 ∧
        ({ State.reset with plen := 251 } : State).desc.getLsbD 0 = false) ∧
      (({ State.reset with plen := 9, desc := 1#2 } : State).params.valBytes <
          ({ State.reset with plen := 9, desc := 1#2 } : State).plen ∧
        ({ State.reset with plen := 9, desc := 1#2 } : State).desc.getLsbD 0 = true) ∧
      (({ State.reset with plen := 8, desc := 1#2 } : State).plen ≤
          ({ State.reset with plen := 8, desc := 1#2 } : State).params.valBytes ∧
        ({ State.reset with plen := 8, desc := 1#2 } : State).desc.getLsbD 1 = false) ∧
      (({ State.reset with plen := 1, desc := 3#2 } : State).plen ≤
          ({ State.reset with plen := 1, desc := 3#2 } : State).params.valBytes ∧
        ({ State.reset with plen := 1, desc := 3#2 } : State).desc.getLsbD 0 = true ∧
        ({ State.reset with plen := 1, desc := 3#2 } : State).desc.getLsbD 1 = true) := by decide

/-- Each mode; decimal of 8 bytes, hex of 9. -/
theorem witness_DecodeRunsTheSelectedMode :
    ({ State.reset with desc := 3#2, plen := 8 } : State).busy = false ∧
      ¬ (({ State.reset with desc := 3#2, plen := 8 } : State).desc.getLsbD 0 = true ∧
        ({ State.reset with desc := 3#2, plen := 8 } : State).params.valBytes <
          ({ State.reset with desc := 3#2, plen := 8 } : State).plen) ∧
      ¬ (({ State.reset with desc := 2#2, plen := 9 } : State).desc.getLsbD 0 = true ∧
        ({ State.reset with desc := 2#2, plen := 9 } : State).params.valBytes <
          ({ State.reset with desc := 2#2, plen := 9 } : State).plen) := by decide

theorem witness_EmptyPayloadGivesTheSentinel :
    isDecode (.decHex true) = true ∧ State.reset.busy = false ∧ State.reset.plen = 0 := by decide

theorem witness_DecimalUnsignedResult :
    ({ State.reset with plen := 8 } : State).busy = false ∧ 1 ≤ ({ State.reset with plen := 8 } : State).plen ∧
      ({ State.reset with plen := 8 } : State).plen ≤ ({ State.reset with plen := 8 } : State).params.valBytes := by decide

theorem witness_DecimalSignedResult :
    ({ State.reset with plen := 1 } : State).busy = false ∧ 1 ≤ ({ State.reset with plen := 1 } : State).plen ∧
      ({ State.reset with plen := 1 } : State).plen ≤ ({ State.reset with plen := 1 } : State).params.valBytes := by decide

theorem witness_HexStringResult :
    ({ State.reset with plen := 251 } : State).busy = false ∧ 1 ≤ ({ State.reset with plen := 251 } : State).plen := by decide

theorem witness_LongDecimalIsRefused :
    ({ State.reset with plen := 9, desc := 1#2 } : State).busy = false ∧
      ({ State.reset with plen := 9, desc := 1#2 } : State).params.valBytes <
        ({ State.reset with plen := 9, desc := 1#2 } : State).plen ∧
      ({ State.reset with plen := 9, desc := 1#2 } : State).desc.getLsbD 0 = true := by decide

theorem witness_DecodeTwiceIsDecodeOnce : State.reset.busy = false ∧ ∃ t, exec .decode State.reset = .next t :=
  ⟨rfl, exec_goes _ _⟩

theorem witness_BigEndianValueAndRange : ([0x80#8] : List Byte) ≠ [] ∧ sbe [0x80#8] = -128 := by decide

theorem witness_WritesIgnoredWhileBusy :
    ({ busyIn .read [] with inbox := [.write 0x04 0x22] } : State).busy = true ∧
      ({ busyIn .read [] with inbox := [.write 0x04 0x22] } : State).inbox = .write 0x04 0x22 :: [] ∧
      ({ busyIn .read [] with inbox := [.writeBuf .wbuf 0 1] } : State).inbox = .writeBuf .wbuf 0 1 :: [] :=
  ⟨rfl, rfl, rfl⟩

/-- `STATUS` and another register while `BUSY`; the first unlisted number, busy and idle; a buffer byte while `BUSY`, at a
capacity, at a length of 0. -/
theorem witness_ReadsOfUnspecifiedValues :
    (busyIn .read []).busy = true ∧ ({ busyIn .read [] with inbox := [.read 0x01] } : State).inbox = .read 0x01 :: [] ∧
      (0x09 ≠ 0x01 ∧ regOfNumber 0x09 = some .attempts) ∧
      (0x11 < 0x12 ∧ ({ State.reset with inbox := [.read 0x12] } : State).inbox = .read 0x12 :: [] ∧
        ({ busyIn .read [] with inbox := [.read 0x12] } : State).inbox = .read 0x12 :: []) ∧
      ({ busyIn .read [] with inbox := [.readBuf .pbuf 0] } : State).inbox = .readBuf .pbuf 0 :: [] ∧
      bufCapacity State.reset.params .wbuf ≤ 255 ∧ State.reset.validBytes .hbuf ≤ 0 := by
  refine ⟨rfl, rfl, ⟨?_, rfl⟩, ⟨?_, rfl, rfl⟩, rfl, ?_, ?_⟩ <;> decide

theorem witness_HostWritesTruncateOrHaveNoEffect :
    State.reset.busy = false ∧ ({ State.reset with inbox := [.write 0x02 256] } : State).inbox = .write 0x02 256 :: [] ∧
      0x0C ∈ [0x01, 0x09, 0x0A, 0x0B, 0x0C, 0x0D, 0x10, 0x11] ∧ 0x11 < 0x12 ∧ bufCapacity State.reset.params .wbuf ≤ 255 := by
  refine ⟨rfl, rfl, ?_⟩
  decide

/-- The last value taken and the first refused, of each register. -/
theorem witness_LengthWritesAboveCapacityAreRefused :
    State.reset.busy = false ∧ (State.reset.params.rxMax < 257 ∧ 256 ≤ State.reset.params.rxMax) ∧
      (State.reset.params.payMax < 252 ∧ 251 ≤ State.reset.params.payMax) ∧ ({ State.reset with inbox := [.write 0x0E 257] } : State).inbox = .write 0x0E 257 :: [] ∧
      ({ State.reset with inbox := [.write 0x0E 256] } : State).inbox = .write 0x0E 256 :: [] ∧
      ({ State.reset with inbox := [.write 0x0F 252] } : State).inbox = .write 0x0F 252 :: [] ∧
      ({ State.reset with inbox := [.write 0x0F 251] } : State).inbox = .write 0x0F 251 :: [] := by
  refine ⟨rfl, ?_, ?_, rfl, rfl, rfl, rfl⟩ <;> decide

/-- The first and the last reserved code above the commands, and 256, whose low byte is the reserved 0x00. -/
theorem witness_ReservedCommandsAreRefused :
    State.reset.busy = false ∧ 7 ≤ 7 % 256 ∧ 7 ≤ 255 % 256 ∧ 256 % 256 = 0 ∧
      ({ State.reset with inbox := [.write 0x00 256] } : State).inbox = .write 0x00 256 :: [] := by
  refine ⟨rfl, ?_, ?_, ?_, rfl⟩ <;> decide

theorem witness_HostReadsReturnTheRegister :
    State.reset.busy = false ∧ ({ State.reset with inbox := [.read 0x11] } : State).inbox = .read 0x11 :: [] := ⟨rfl, rfl⟩

/-- The last byte of `WBUF`, and a byte of `RXBUF` below its length. -/
theorem witness_BufferByteWrittenReadsBack :
    State.reset.busy = false ∧ 254 < bufCapacity State.reset.params .wbuf ∧
      ({ State.reset with inbox := [.writeBuf .wbuf 254 0xAB] } : State).inbox = .writeBuf .wbuf 254 0xAB :: [] ∧
      6 < (holding good).validBytes .rxbuf := by
  refine ⟨rfl, ?_, rfl, ?_⟩ <;> decide

/-- The last byte of `WBUF`, and the last byte below the length of each other buffer: a frame of 7 bytes, a response of 7, a payload
of 251, a hex string of 504. -/
theorem witness_BufferReadsReturnTheByte :
    State.reset.busy = false ∧ 254 < bufCapacity State.reset.params .wbuf ∧
      (6 < bufCapacity State.reset.params .txbuf ∧ 6 < ({ State.reset with txlen := 7 } : State).txlen) ∧
      (6 < bufCapacity State.reset.params .rxbuf ∧ 6 < (holding good).rxlen) ∧
      (250 < bufCapacity State.reset.params .pbuf ∧ 250 < ({ State.reset with plen := 251 } : State).plen) ∧
      (503 < bufCapacity State.reset.params .hbuf ∧ 503 < ({ State.reset with hlen := 504 } : State).hlen) ∧
      ({ State.reset with hlen := 504, inbox := [.readBuf .hbuf 503] } : State).inbox = .readBuf .hbuf 503 :: [] := by
  refine ⟨rfl, ?_, ?_, ?_, ?_, ?_, rfl⟩ <;> decide

theorem witness_WaitAndArrivals :
    (({ State.reset with inbox := [.wait] } : State).inbox = .wait :: [] ∧
      ({ State.reset with inbox := [.wait] } : State).busy = false) ∧
      (({ busyIn .flush [.ok []] with inbox := [.wait] } : State).inbox = .wait :: [] ∧
        ({ busyIn .flush [.ok []] with inbox := [.wait] } : State).busy = true ∧
        ∃ t, step { busyIn .flush [.ok []] with inbox := [.wait] } = .next t) ∧
      ({ State.reset with inbox := [.arrive [0x00#8]] } : State).inbox = .arrive [0x00#8] :: [] ∧
      ({ busyIn .build [] with inbox := [.pass] } : State).inbox = .pass :: [] ∧
      (({ State.reset with inbox := [.pass] } : State).inbox = .pass :: [] ∧
        ({ State.reset with inbox := [.pass] } : State).busy = false) :=
  ⟨⟨rfl, rfl⟩, ⟨rfl, rfl, _, rfl⟩, rfl, rfl, rfl, rfl⟩

theorem witness_ResetAbandonsEverything :
    ({ busyIn .read [] with inbox := [.reset] } : State).inbox = .reset :: [] := rfl

/-- A step, after which the parameters are those before; a width of R20. -/
theorem witness_ParametersAreFixed :
    (∃ t, step (busyIn .flush [.ok []]) = .next t) ∧ (Reg.txlen, 9) ∈ [(Reg.txlen, 9), (Reg.hlen, 9)] :=
  ⟨⟨_, rfl⟩, by decide⟩

theorem witness_IdleBlockStaysIdle : State.reset.busy = false ∧ State.reset.inbox = [] := ⟨rfl, rfl⟩

end Sys2Proof.Tests
end

section
/-! SUPPORT. O60: no step changes the parameters (00_scope.md R5), by what each meaning, each phase and each host access leaves
of them; their values after reset and the widths of 10_state.md R20. -/

namespace Sys2Proof.Machine

/-! ## What the next state of an outcome satisfies -/

/-- The next state, if the outcome has one, satisfies `P`: a partial-correctness claim about one outcome. -/
def NextSatisfies (P : State → Prop) (o : Host.Outcome State Fault Refusal) : Prop := ∀ t, o = .next t → P t

@[simp] theorem nextSatisfies_next (P : State → Prop) (t : State) : NextSatisfies P (.next t) ↔ P t :=
  ⟨fun h => h t rfl, fun h u hu => by injection hu with hu; exact hu ▸ h⟩

@[simp] theorem nextSatisfies_fault (P : State → Prop) (f : Fault) : NextSatisfies P (.fault f) :=
  fun _ h => nomatch h

@[simp] theorem nextSatisfies_refused (P : State → Prop) (r : Refusal) : NextSatisfies P (.refused r) :=
  fun _ h => nomatch h

/-- The outcome leaves the parameters `p`. -/
abbrev ParamsStay (p : Params) (o : Host.Outcome State Fault Refusal) : Prop := NextSatisfies (fun t => t.params = p) o

/-! ## The instructions -/

theorem buildFrame_params (frame : List Byte) (s : State) : ParamsStay s.params (buildFrame frame s) := by
  unfold buildFrame
  split <;> simp

theorem checkException_params (code : Byte) (s : State) : ParamsStay s.params (checkException code s) := by
  unfold checkException
  split <;> simp

theorem decodeUnder_params (decimal signed : Bool) (s : State) : ParamsStay s.params (decodeUnder decimal signed s) := by
  unfold decodeUnder
  split
  · simp
  · split <;> simp

theorem execCrc16_params (s : State) : ParamsStay s.params (execCrc16 s) := by
  unfold execCrc16
  split <;> simp

theorem execVerify_params (s : State) : ParamsStay s.params (execVerify s) := by
  unfold execVerify
  split <;> simp

theorem execEncode_params (s : State) : ParamsStay s.params (execEncode s) := by
  unfold execEncode
  split
  · simp
  · split <;> simp

theorem execDecrsp_params (s : State) : ParamsStay s.params (execDecrsp s) := by
  unfold execDecrsp
  split <;> simp

theorem execXact_params (s : State) : ParamsStay s.params (execXact s) := by
  unfold execXact
  split
  · simp
  · split
    · simp
    · dsimp only
      split <;> simp

theorem execRsp_params (raw : List Byte) (s : State) : ParamsStay s.params (execRsp raw s) := by
  unfold execRsp
  split
  · split <;> simp
  · simp

/-- No instruction changes the parameters. -/
theorem exec_params (i : Instr) (s : State) : ParamsStay s.params (exec i s) := by
  cases i
  case crc16 => exact execCrc16_params s
  case verify => exact execVerify_params s
  case encode => exact execEncode_params s
  case decrsp => exact execDecrsp_params s
  case xact => exact execXact_params s
  case decode => exact decodeUnder_params _ _ s
  case rdhN => exact buildFrame_params _ s
  case rdhW => exact buildFrame_params _ s
  case rdiN => exact buildFrame_params _ s
  case rdiW => exact buildFrame_params _ s
  case wrs => exact buildFrame_params _ s
  case wrm => exact buildFrame_params _ s
  case exc03 => exact checkException_params _ s
  case exc04 => exact checkException_params _ s
  case exc06 => exact checkException_params _ s
  case exc10 => exact checkException_params _ s
  case rsp => exact execRsp_params _ s
  case decHex => exact decodeUnder_params _ _ s
  case decU => exact decodeUnder_params _ _ s
  case decS => exact decodeUnder_params _ _ s

/-! ## The phases -/

theorem stepBuild_params (s : State) : ParamsStay s.params (stepBuild s) := by
  unfold stepBuild
  split
  · simp
  · split
    · rename_i t ht
      simpa using exec_params _ _ t ht
    · simp
    · simp

theorem stepFlush_params (s : State) : ParamsStay s.params (stepFlush s) := by
  unfold stepFlush
  split <;> simp

theorem stepWrite_params (s : State) : ParamsStay s.params (stepWrite s) := by
  unfold stepWrite
  split <;> simp

theorem stepRead_params (s : State) : ParamsStay s.params (stepRead s) := by
  unfold stepRead
  split
  · simp
  · dsimp only
    split <;> simp

theorem stepExecutor_params (s : State) : ParamsStay s.params (stepExecutor s) := by
  unfold stepExecutor
  split
  · split
    · exact stepBuild_params s
    · exact stepFlush_params s
    · exact stepWrite_params s
    · exact stepRead_params s
    · exact exec_params _ s
  · simp

/-! ## The host's accesses -/

theorem hostCommand_params (c : Byte) (s : State) : ParamsStay s.params (hostCommand c s) := by
  unfold hostCommand
  split
  · exact exec_params _ s
  · simp

theorem hostWrite_params (reg value : Nat) (s : State) : ParamsStay s.params (hostWrite reg value s) := by
  unfold hostWrite
  split
  · simp
  · split
    case h_2 => exact hostCommand_params _ s
    case h_10 => split <;> simp
    case h_11 => split <;> simp
    all_goals simp

theorem hostWriteBuf_params (b : Buf) (i value : Nat) (s : State) : ParamsStay s.params (hostWriteBuf b i value s) := by
  unfold hostWriteBuf
  split <;> simp

theorem hostRead_params (reg : Nat) (s : State) : ParamsStay s.params (hostRead reg s) := by
  unfold hostRead
  split
  · simp
  · split <;> simp

theorem hostReadBuf_params (b : Buf) (i : Nat) (s : State) : ParamsStay s.params (hostReadBuf b i s) := by
  unfold hostReadBuf
  split <;> simp

@[simp] theorem State.restart_params (s : State) : s.restart.params = s.params := rfl

/-! ## A step, and the state after reset -/

/-- No step changes the parameters, whatever the event at the head of the inbox. -/
theorem step_params (s : State) : ParamsStay s.params (step s) := by
  unfold step stepInput
  split
  · exact stepExecutor_params s
  · exact stepExecutor_params _
  · split
    · exact stepExecutor_params _
    · simp
  · exact hostWrite_params _ _ _
  · exact hostRead_params _ _
  · exact hostWriteBuf_params _ _ _ _
  · exact hostReadBuf_params _ _ _
  · simp
  · simp

/-- The values the spec takes stand in the relations of 00_scope.md R5. -/
theorem spec_legal : Params.spec.Legal := ⟨rfl, rfl, rfl, rfl⟩

/-- Settles O60: every step leaves the parameters as they are, and those after reset are the spec's, from which the widths of
10_state.md R20 are computed. -/
theorem parametersAreFixed : Obligations.ParametersAreFixed := by
  unfold Obligations.ParametersAreFixed
  refine ⟨step_params, rfl, rfl, rfl, rfl, rfl, rfl, rfl, spec_legal, fun r w hrw => ?_⟩
  fin_cases hrw <;> rfl

end Sys2Proof.Machine
end

section
/-! SUPPORT. What a step is, by the event at the head of the inbox (30_encoding.md R108, 70_reset_and_hazards.md R230; logs 1 and
24). -/

namespace Sys2Proof.Machine

variable {s : State} {rest : List Input}

theorem step_pass (h : s.inbox = .pass :: rest) : step s = stepExecutor { s with inbox := rest } := by
  simp only [step, stepInput, h]

theorem step_wait_busy (h : s.inbox = .wait :: rest) (hb : s.busy = true) :
    step s = stepExecutor (s.answerRead s.status.toNat) := by
  simp only [step, stepInput, h, hb, if_true, State.regValue]

theorem step_wait_idle (h : s.inbox = .wait :: rest) (hb : s.busy = false) :
    step s = .next (State.answerRead s.status.toNat { s with inbox := rest }) := by
  simp only [step, stepInput, h, hb, Bool.false_eq_true, if_false, State.regValue]

theorem step_hostWrite {reg v : Nat} (h : s.inbox = .write reg v :: rest) :
    step s = hostWrite reg v { s with inbox := rest } := by
  simp only [step, stepInput, h]

theorem step_hostRead {reg : Nat} (h : s.inbox = .read reg :: rest) : step s = hostRead reg { s with inbox := rest } := by
  simp only [step, stepInput, h]

theorem step_hostWriteBuf {b : Buf} {i v : Nat} (h : s.inbox = .writeBuf b i v :: rest) :
    step s = hostWriteBuf b i v { s with inbox := rest } := by
  simp only [step, stepInput, h]

theorem step_hostReadBuf {b : Buf} {i : Nat} (h : s.inbox = .readBuf b i :: rest) :
    step s = hostReadBuf b i { s with inbox := rest } := by
  simp only [step, stepInput, h]

theorem step_arrive {bytes : List Byte} (h : s.inbox = .arrive bytes :: rest) :
    step s = .next { s with inbox := rest, line := s.line ++ bytes } := by
  simp only [step, stepInput, h]

theorem step_reset (h : s.inbox = .reset :: rest) : step s = .next (State.restart { s with inbox := rest }) := by
  simp only [step, stepInput, h]

end Sys2Proof.Machine
end

section
/-! SUPPORT. O30, O31: every step keeps the invariant `State.Inv`, and the state after reset meets it. -/

namespace Sys2Proof.Machine

/-! ## The state after reset -/

/-- The reset values meet the invariant whatever the parameters, the channel, the inputs and the model's counters are. -/
theorem resetValues_inv {p : Params} (hp : p.Legal) (line : List Byte) (chan : List ChanDraw) (inbox : List Input)
    (rdata : Nat) (events : List Event) (chanDraws readDraws resets : Nat) :
    ({ State.reset with
      params := p, line := line, chan := chan, inbox := inbox, rdata := rdata, events := events
      chanDraws := chanDraws, readDraws := readDraws, resets := resets } : State).Inv where
  attempt_iff_busy := by simp [State.reset]
  operands_legal := nofun
  attempts_remain := nofun
  attempts_counted := nofun
  frame_built := nofun
  txlen_le := Nat.zero_le _
  rxlen_le := Nat.zero_le _
  plen_le := Nat.zero_le _
  hlen_le := Nat.zero_le _
  buf_wf := (buffers_empty_ok _ fun b => by cases b <;> rfl).1
  buf_within := (buffers_empty_ok _ fun b => by cases b <;> rfl).2
  sentinel _ := ⟨rfl, rfl⟩
  hex_or_dval := .inl rfl
  idle_fresh _ := ⟨rfl, rfl, rfl⟩
  success_counted := nofun
  params_legal := hp
  budget_fits := Nat.two_pow_pos _
  attempts_fit := Nat.two_pow_pos _
  dval_fits := Nat.two_pow_pos _

theorem State.Inv.restart {s : State} (h : s.Inv) : s.restart.Inv := resetValues_inv h.params_legal ..

/-- Settles O31: the state after reset is the reset values at the spec's parameters. -/
theorem resetMeetsInvariant : Obligations.ResetMeetsInvariant := resetValues_inv spec_legal ..

/-! ## Every step -/

theorem State.Inv.withInbox {s : State} (h : s.Inv) (rest : List Input) : ({ s with inbox := rest } : State).Inv := h.env ..

theorem stepExecutor_keeps_inv {s t : State} (h : s.Inv) (he : stepExecutor s = .next t) : t.Inv := by
  unfold stepExecutor at he
  split at he
  · rename_i hb
    split at he
    · exact stepBuild_keeps_inv h hb ‹_› he
    · exact stepFlush_keeps_inv h hb ‹_› he
    · exact stepWrite_keeps_inv h hb ‹_› he
    · exact stepRead_keeps_inv h hb ‹_› he
    · exact stepCheck_keeps_inv h he
  · injection he with he
    exact he ▸ h

/-- Settles O30, by the event at the head of the inbox: a step of the executor, a host access, an arrival or a reset. -/
theorem stepKeepsInvariant : Obligations.StepKeepsInvariant := by
  intro s t h he
  match hi : s.inbox with
  | [] => exact stepExecutor_keeps_inv h ((step_of_no_input hi).symm.trans he)
  | .pass :: rest => exact stepExecutor_keeps_inv (h.withInbox rest) ((step_pass hi).symm.trans he)
  | .wait :: rest =>
    cases hb : s.busy with
    | true => exact stepExecutor_keeps_inv (h.answerRead _) ((step_wait_busy hi hb).symm.trans he)
    | false =>
      injection (step_wait_idle hi hb).symm.trans he with he
      exact he ▸ (h.withInbox rest).answerRead _
  | .write _ _ :: rest => exact hostWrite_keeps_inv (h.withInbox rest) ((step_hostWrite hi).symm.trans he)
  | .read _ :: rest => exact hostRead_keeps_inv (h.withInbox rest) ((step_hostRead hi).symm.trans he)
  | .writeBuf _ _ _ :: rest => exact hostWriteBuf_keeps_inv (h.withInbox rest) ((step_hostWriteBuf hi).symm.trans he)
  | .readBuf _ _ :: rest => exact hostReadBuf_keeps_inv (h.withInbox rest) ((step_hostReadBuf hi).symm.trans he)
  | .arrive _ :: _ =>
    injection (step_arrive hi).symm.trans he with he
    exact he ▸ h.env ..
  | .reset :: rest =>
    injection (step_reset hi).symm.trans he with he
    exact he ▸ (h.withInbox rest).restart

end Sys2Proof.Machine
end

section
/-! SUPPORT. O35, O36: what an instruction can do, said once with its guards, and from it which instruction may change a flag. -/

namespace Sys2Proof.Machine

/-! ## What an instruction can do -/

/-- The next state of an instruction run on `s`: one constructor for each way a meaning can end, with the guard under which it
does. -/
inductive ExecEffect (s : State) : Instr → State → Prop
  /-- A command during a transaction is ignored (10_state.md R40). -/
  | ignored {i : Instr} (hi : isCommand i = true) (hb : s.busy = true) : ExecEffect s i s
  /-- A refusal changes `ERR` alone (60_exceptions.md R208). -/
  | refuse {i : Instr} (e : ErrCode) (hi : isCommand i = true) (hb : s.busy = false) : ExecEffect s i (s.refuse e)
  /-- CRC16 (40_crc_engine.md R125). -/
  | crc16 (hb : s.busy = false) : ExecEffect s .crc16 { s with crcreg := crc16 s.response, err := .ok }
  /-- VERIFY (40_crc_engine.md R126). -/
  | verify (hb : s.busy = false) : ExecEffect s .verify { s with vok := verify s.response, err := .ok }
  /-- ENCODE of legal operands (41_frame_codec.md R142). -/
  | encode (frame : List Byte) (hb : s.busy = false) (hf : encodeRequest s.operands = .ok frame) :
    ExecEffect s .encode { s.storeTx frame with err := .ok }
  /-- DECRSP (41_frame_codec.md R143). -/
  | decrsp (hb : s.busy = false) : ExecEffect s .decrsp { s.storePayload (stripResponse s.response) with err := .ok }
  /-- XACT with a budget of zero (42_transaction_executor.md R152). -/
  | xactEmpty (hb : s.busy = false) (ho : s.operandError = none) (hn : s.cfgBudget = 0) :
    ExecEffect s .xact
      (State.exhaust { s with err := .ok, attempts := 0, cause := .none, excode := 0#8, rxlen := 0 })
  /-- XACT with attempts to make (42_transaction_executor.md R151). -/
  | xactStart (hb : s.busy = false) (ho : s.operandError = none) (hn : s.cfgBudget ≠ 0) :
    ExecEffect s .xact
      { s with
        err := .ok, attempts := 0, cause := .none, excode := 0#8, rxlen := 0
        xstate := .attempt, phase := .build, busy := true }
  /-- DECODE or a mode of it, with a result (43_register_decoder.md R187). -/
  | decode {i : Instr} (v : DecodedValue) (hi : isDecode i = true) (hb : s.busy = false) : ExecEffect s i (s.deliver v)
  /-- A request row where a frame may be built (41_frame_codec.md R146). -/
  | frame {i : Instr} (frame : List Byte) (hi : isCommand i = false) (hr : isResponse i = false)
    (hm : s.mayBuild = true) : ExecEffect s i (s.storeTx frame)
  /-- A request row elsewhere (log 14). -/
  | noFrame {i : Instr} (hi : isCommand i = false) (hr : isResponse i = false) (hm : s.mayBuild = false) :
    ExecEffect s i s
  /-- An exception response in CHECK (42_transaction_executor.md R157). -/
  | exception {i : Instr} (code : Byte) (hr : isResponse i = true) (hc : s.checking = true) :
    ExecEffect s i (({ s with excode := code }).attemptFail .exception)
  /-- A response that CHECK rejects (42_transaction_executor.md R157). -/
  | reject {raw : List Byte} (c : Cause) (hc : s.checking = true) (hr : responseCause raw = some c) :
    ExecEffect s (.rsp raw) (s.attemptFail c)
  /-- A response that CHECK accepts (42_transaction_executor.md R158). -/
  | accept {raw : List Byte} (hc : s.checking = true) (hr : responseCause raw = none) :
    ExecEffect s (.rsp raw) (s.succeed raw)
  /-- A response row outside CHECK (log 14). -/
  | noCheck {i : Instr} (hr : isResponse i = true) (hc : s.checking = false) : ExecEffect s i s

theorem NextSatisfies.next {P : State → Prop} {t : State} (h : P t) : NextSatisfies P (.next t) :=
  (nextSatisfies_next P t).mpr h

/-- The test every command makes first. -/
theorem ExecEffect.unlessBusy {s : State} {i : Instr} {o : Host.Outcome State Fault Refusal} (hi : isCommand i = true)
    (h : s.busy = false → NextSatisfies (ExecEffect s i) o) :
    NextSatisfies (ExecEffect s i) (if s.busy then .next s else o) := by
  cases hb : s.busy with
  | true => exact .next (.ignored hi hb)
  | false => exact h hb

theorem buildFrame_effect {i : Instr} (frame : List Byte) (s : State) (hi : isCommand i = false)
    (hr : isResponse i = false) : NextSatisfies (ExecEffect s i) (buildFrame frame s) := by
  rw [buildFrame_eq]
  cases hm : s.mayBuild with
  | true => exact .next (.frame frame hi hr hm)
  | false => exact .next (.noFrame hi hr hm)

theorem checkException_effect {i : Instr} (code : Byte) (s : State) (hr : isResponse i = true) :
    NextSatisfies (ExecEffect s i) (checkException code s) := by
  rw [checkException_eq]
  cases hc : s.checking with
  | true => exact .next (.exception code hr hc)
  | false => exact .next (.noCheck hr hc)

theorem decodeUnder_effect {i : Instr} (decimal signed : Bool) (s : State) (hi : isCommand i = true)
    (hd : isDecode i = true) : NextSatisfies (ExecEffect s i) (decodeUnder decimal signed s) := by
  refine ExecEffect.unlessBusy hi fun hb => ?_
  split
  · exact .next (.refuse .badLen hi hb)
  · exact .next (.decode _ hd hb)

theorem execEncode_effect (s : State) : NextSatisfies (ExecEffect s .encode) (execEncode s) := by
  refine ExecEffect.unlessBusy rfl fun hb => ?_
  split
  · exact .next (.refuse _ rfl hb)
  · exact .next (.encode _ hb ‹_›)

theorem execXact_effect (s : State) : NextSatisfies (ExecEffect s .xact) (execXact s) := by
  refine ExecEffect.unlessBusy rfl fun hb => ?_
  split
  · exact .next (.refuse _ rfl hb)
  · dsimp only
    split
    · exact .next (.xactEmpty hb ‹_› ‹_›)
    · exact .next (.xactStart hb ‹_› ‹_›)

theorem execRsp_effect (raw : List Byte) (s : State) : NextSatisfies (ExecEffect s (.rsp raw)) (execRsp raw s) := by
  unfold execRsp
  split
  · split
    · exact .next (.reject _ ‹_› ‹_›)
    · exact .next (.accept ‹_› ‹_›)
  · rename_i hc
    exact .next (.noCheck rfl (Bool.not_eq_true _ ▸ hc))

/-- Every meaning ends in one of these ways. -/
theorem exec_effect (i : Instr) (s : State) : NextSatisfies (ExecEffect s i) (exec i s) := by
  cases i
  case crc16 => exact ExecEffect.unlessBusy rfl fun hb => .next (.crc16 hb)
  case verify => exact ExecEffect.unlessBusy rfl fun hb => .next (.verify hb)
  case encode => exact execEncode_effect s
  case decrsp => exact ExecEffect.unlessBusy rfl fun hb => .next (.decrsp hb)
  case xact => exact execXact_effect s
  case decode => exact decodeUnder_effect _ _ s rfl rfl
  case rdhN => exact buildFrame_effect _ s rfl rfl
  case rdhW => exact buildFrame_effect _ s rfl rfl
  case rdiN => exact buildFrame_effect _ s rfl rfl
  case rdiW => exact buildFrame_effect _ s rfl rfl
  case wrs => exact buildFrame_effect _ s rfl rfl
  case wrm => exact buildFrame_effect _ s rfl rfl
  case exc03 => exact checkException_effect _ s rfl
  case exc04 => exact checkException_effect _ s rfl
  case exc06 => exact checkException_effect _ s rfl
  case exc10 => exact checkException_effect _ s rfl
  case rsp raw => exact execRsp_effect raw s
  case decHex => exact decodeUnder_effect _ _ s rfl rfl
  case decU => exact decodeUnder_effect _ _ s rfl rfl
  case decS => exact decodeUnder_effect _ _ s rfl rfl

/-! ## Commands while a transaction runs -/

/-- Settles O36: the test of `BUSY` is the first of each command and of each decoder mode. -/
theorem commandsIgnoredWhileBusy : Obligations.CommandsIgnoredWhileBusy := by
  intro i s hi hb
  cases i
  case crc16 | verify | encode | decrsp | xact | decode | decHex | decU | decS => exact if_pos hb
  all_goals exact absurd hi Bool.false_ne_true

/-! ## The flags -/

/-- A failed attempt leaves the transaction running, or ends it in EXHAUSTED (42_transaction_executor.md R161). -/
theorem State.attemptFail_busy_cases (s : State) (c : Cause) :
    (s.attemptFail c).busy = s.busy ∨ (s.attemptFail c).busy = false := by
  by_cases h : s.attempts < s.cfgBudget
  · exact .inl (by rw [s.attemptFail_retry c h])
  · exact .inr (by rw [s.attemptFail_exhaust c h])

theorem isCommand_of_isDecode {i : Instr} (hd : isDecode i = true) : isCommand i = true := by
  cases i
  case decode | decHex | decU | decS => rfl
  all_goals exact absurd hd Bool.false_ne_true

/-- Settles O35, by the ways an instruction can end. -/
theorem flagsWrittenOnlyByTheirInstructions : Obligations.FlagsWrittenOnlyByTheirInstructions := by
  intro i s t he
  cases exec_effect i s t he with
  | ignored hi hb => simp
  | refuse e hi hb => simp [hi, hb]
  | crc16 hb => simp [isCommand, hb]
  | verify hb => simp [isCommand, hb]
  | encode frame hb hf => simp [isCommand, hb]
  | decrsp hb => simp [isCommand, hb]
  | xactEmpty hb ho hn => simp [isCommand, hb]
  | xactStart hb ho hn => simp [isCommand, hb]
  | decode v hi hb => simp [hi, hb, isCommand_of_isDecode hi]
  | frame f hi hr hm => simp
  | noFrame hi hr hm => simp
  | exception code hr hc =>
    have hbusy := State.attemptFail_busy_cases { s with excode := code } .exception
    exact ⟨by simp, by simp, by simp, fun h => .inr ⟨hr, hbusy.resolve_left h⟩, fun _ => .inr hr, by simp⟩
  | reject c hc hr =>
    have hbusy := State.attemptFail_busy_cases s c
    exact ⟨by simp, by simp, by simp, fun h => .inr ⟨rfl, hbusy.resolve_left h⟩, fun _ => .inr rfl, by simp⟩
  | accept hc hr => simp [isResponse]
  | noCheck hr hc => simp

end Sys2Proof.Machine
end

section
/-! SUPPORT. O33, O47: what the host alone writes, which no instruction and no phase changes, and the host's writes while a
transaction runs (10_state.md R40, 20_memory.md R84). -/

namespace Sys2Proof.Machine

/-! ## What the host alone writes -/

/-- The operand and configuration registers and what the bytes of `WBUF` depend on: its memory and the number of resets. -/
def State.hostHeld (s : State) : Byte × Byte × Half × Half × BitVec 2 × Nat × Profile × Memory × Nat :=
  (s.slave, s.fc, s.raddr, s.qty, s.desc, s.cfgBudget, s.cfgWide, s.wbuf, s.resets)

/-- The outcome leaves what the host alone writes as it is in `s`. -/
abbrev HostHeldStays (s : State) (o : Host.Outcome State Fault Refusal) : Prop :=
  NextSatisfies (fun t => t.hostHeld = s.hostHeld) o

/-- No instruction writes an operand or configuration register or `WBUF` (20_memory.md R84). -/
theorem exec_hostHeld (i : Instr) (s : State) : HostHeldStays s (exec i s) := by
  intro t he
  cases exec_effect i s t he <;> simp [State.hostHeld]

theorem stepBuild_hostHeld (s : State) : HostHeldStays s (stepBuild s) := by
  unfold stepBuild
  split
  · simp
  · split
    · rename_i t ht
      exact .next (exec_hostHeld _ { s with attempts := s.attempts + 1 } t ht)
    · simp
    · simp

theorem stepFlush_hostHeld (s : State) : HostHeldStays s (stepFlush s) := by
  unfold stepFlush
  split <;> simp [State.hostHeld]

theorem stepWrite_hostHeld (s : State) : HostHeldStays s (stepWrite s) := by
  unfold stepWrite
  split <;> simp [State.hostHeld]

theorem stepRead_hostHeld (s : State) : HostHeldStays s (stepRead s) := by
  unfold stepRead
  split
  · simp [State.hostHeld]
  · dsimp only
    split <;> simp [State.hostHeld]

theorem stepExecutor_hostHeld (s : State) : HostHeldStays s (stepExecutor s) := by
  unfold stepExecutor
  split
  · split
    · exact stepBuild_hostHeld s
    · exact stepFlush_hostHeld s
    · exact stepWrite_hostHeld s
    · exact stepRead_hostHeld s
    · exact exec_hostHeld _ s
  · simp

/-! ## The host's accesses -/

theorem hostRead_hostHeld (reg : Nat) (s : State) : HostHeldStays s (hostRead reg s) := by
  unfold hostRead
  split
  · simp [State.hostHeld]
  · split <;> simp [State.hostHeld]

theorem hostReadBuf_hostHeld (b : Buf) (i : Nat) (s : State) : HostHeldStays s (hostReadBuf b i s) := by
  unfold hostReadBuf
  split <;> simp [State.hostHeld]

theorem step_hostWrite_of_busy {s : State} {reg v : Nat} {rest : List Input} (h : s.inbox = .write reg v :: rest)
    (hb : s.busy = true) : step s = .next { s with inbox := rest } := (step_hostWrite h).trans (if_pos hb)

theorem step_hostWriteBuf_of_busy {s : State} {b : Buf} {i v : Nat} {rest : List Input}
    (h : s.inbox = .writeBuf b i v :: rest) (hb : s.busy = true) : step s = .next { s with inbox := rest } := by
  rw [step_hostWriteBuf h]
  simp [hostWriteBuf, hb]

/-- While `BUSY` no step but a reset changes what the host alone writes. -/
theorem step_hostHeld_of_busy {s : State} (hb : s.busy = true) (hr : s.inbox.head? ≠ some .reset) :
    HostHeldStays s (step s) := by
  match hi : s.inbox with
  | [] => rw [step_of_no_input hi]; exact stepExecutor_hostHeld s
  | .pass :: _ => rw [step_pass hi]; exact stepExecutor_hostHeld _
  | .wait :: _ => rw [step_wait_busy hi hb]; exact stepExecutor_hostHeld _
  | .write _ _ :: _ => rw [step_hostWrite_of_busy hi hb]; exact .next rfl
  | .read _ :: _ => rw [step_hostRead hi]; exact hostRead_hostHeld _ _
  | .writeBuf _ _ _ :: _ => rw [step_hostWriteBuf_of_busy hi hb]; exact .next rfl
  | .readBuf _ _ :: _ => rw [step_hostReadBuf hi]; exact hostReadBuf_hostHeld _ _ _
  | .arrive _ :: _ => rw [step_arrive hi]; exact .next rfl
  | .reset :: _ => exact absurd (by rw [hi]; rfl) hr

/-- Settles O33: the executor and the host's reads leave what the host alone writes, and the host's writes are ignored. -/
theorem operandsFrozenWhileBusy : Obligations.OperandsFrozenWhileBusy := by
  intro s t hb he hr
  have h := step_hostHeld_of_busy hb hr t he
  simp only [State.hostHeld, Prod.mk.injEq] at h
  obtain ⟨hslave, hfc, hraddr, hqty, hdesc, hbudget, hwide, hwbuf, hresets⟩ := h
  exact ⟨hslave, hfc, hraddr, hqty, hdesc, hbudget, hwide, State.byteAt_congr (b := .wbuf) hwbuf hresets⟩

/-- Settles O47: writes to registers and to buffers test `BUSY` first. -/
theorem writesIgnoredWhileBusy : Obligations.WritesIgnoredWhileBusy := by
  intro s rest hb
  exact ⟨fun reg v hi => step_hostWrite_of_busy hi hb, fun b i v hi => step_hostWriteBuf_of_busy hi hb⟩

end Sys2Proof.Machine
end

section
/-! SUPPORT. O48, O52, O54: the host's reads of registers and buffers, each said once under its guard. -/

namespace Sys2Proof.Machine

/-! ## Register numbers -/

/-- R20 lists no number above 0x11. -/
theorem regOfNumber_eq_none {n : Nat} (h : 0x11 < n) : regOfNumber n = none := by
  unfold regOfNumber
  split
  case h_19 => rfl
  all_goals omega

theorem eq_of_regOfNumber_status {n : Nat} (h : regOfNumber n = some .status) : n = 0x01 := by
  unfold regOfNumber at h
  split at h
  case h_2 => rfl
  all_goals exact absurd h (by decide)

/-- Register by register, the number of 10_state.md R20 and what a read of it returns. -/
theorem regValue_of_number {s : State} {n v : Nat}
    (h : (n, v) ∈ [(0x00, 0), (0x01, s.status.toNat), (0x02, s.cfgBudget), (0x03, s.cfgWide.toNat), (0x04, s.slave.toNat),
        (0x05, s.fc.toNat), (0x06, s.raddr.toNat), (0x07, s.qty.toNat), (0x08, s.desc.toNat), (0x09, s.attempts),
        (0x0A, (causeCode s.cause).toNat), (0x0B, s.excode.toNat), (0x0C, s.crcreg.toNat), (0x0D, s.txlen),
        (0x0E, s.rxlen), (0x0F, s.plen), (0x10, s.hlen), (0x11, s.dval)]) :
    ∃ r, regOfNumber n = some r ∧ s.regValue r = v := by
  fin_cases h <;> exact ⟨_, rfl, rfl⟩

/-! ## Reads -/

/-- An unspecified read returns some value of the width asked for and changes nothing else but the count of such reads. -/
theorem State.drawRead_spec (s : State) (w : Nat) :
    ∃ v, v < 2 ^ w ∧ s.drawRead w = { s with rdata := v, readDraws := s.readDraws + 1 } :=
  ⟨_, Nat.mod_lt _ (Nat.two_pow_pos w), rfl⟩

theorem hostRead_unlisted {n : Nat} (h : regOfNumber n = none) (s : State) :
    hostRead n s = .next (s.drawRead (8 * s.params.valBytes)) := by
  simp only [hostRead, h]

theorem hostRead_hidden {s : State} {n : Nat} {r : Reg} (h : regOfNumber n = some r) (hb : s.busy = true)
    (hr : r ≠ .status) : hostRead n s = .next (s.drawRead (regWidth s.params r)) := by
  simp [hostRead, h, hb, hr]

theorem hostRead_shown {s : State} {n : Nat} {r : Reg} (h : regOfNumber n = some r) (hs : s.busy = false ∨ r = .status) :
    hostRead n s = .next (s.answerRead (s.regValue r)) := by
  rcases hs with hb | rfl
  · simp [hostRead, h, hb]
  · simp [hostRead, h]

theorem hostReadBuf_hidden {s : State} {b : Buf} {i : Nat}
    (h : s.busy = true ∨ bufCapacity s.params b ≤ i ∨ s.validBytes b ≤ i) :
    hostReadBuf b i s = .next (s.drawRead 8) := by
  refine if_neg ?_
  rcases h with hb | hc | hv
  · simp [hb]
  · simp [Nat.not_lt.mpr hc]
  · simp [Nat.not_lt.mpr hv]

theorem hostReadBuf_shown {s : State} {b : Buf} {i : Nat} (hb : s.busy = false) (hc : i < bufCapacity s.params b)
    (hv : i < s.validBytes b) : hostReadBuf b i s = .next (s.answerRead (s.byteAt b i).toNat) :=
  if_pos (by simp [hb, hc, hv])

theorem step_hostReadBuf_shown {s : State} {b : Buf} {i : Nat} {rest : List Input} (h : s.inbox = .readBuf b i :: rest)
    (hb : s.busy = false) (hc : i < bufCapacity s.params b) (hv : i < s.validBytes b) :
    step s = .next { s with inbox := rest, rdata := (s.byteAt b i).toNat } :=
  (step_hostReadBuf h).trans (hostReadBuf_shown (s := { s with inbox := rest }) hb hc hv)

/-- Settles O48: `STATUS` is shown while `BUSY`; every other read the statement names is a free value. -/
theorem readsOfUnspecifiedValues : Obligations.ReadsOfUnspecifiedValues := by
  intro s rest
  refine ⟨fun _ hi => ?_, fun reg r hb hne hr hi => ?_, fun reg hreg hi => ?_, fun b i h hi => ?_⟩
  · rw [step_hostRead hi, hostRead_shown rfl (.inr rfl)]
    rfl
  · have hs : r ≠ .status := fun hs => hne (eq_of_regOfNumber_status (hs ▸ hr))
    rw [step_hostRead hi, hostRead_hidden (s := { s with inbox := rest }) hr hb hs]
    obtain ⟨v, hv, hd⟩ := State.drawRead_spec { s with inbox := rest } (regWidth s.params r)
    exact ⟨v, hv, congrArg _ hd⟩
  · rw [step_hostRead hi, hostRead_unlisted (regOfNumber_eq_none hreg)]
    obtain ⟨v, hv, hd⟩ := State.drawRead_spec { s with inbox := rest } (8 * s.params.valBytes)
    exact ⟨v, hv, congrArg _ hd⟩
  · rw [step_hostReadBuf hi, hostReadBuf_hidden (s := { s with inbox := rest }) h]
    obtain ⟨v, hv, hd⟩ := State.drawRead_spec { s with inbox := rest } 8
    exact ⟨v, hv, congrArg _ hd⟩

/-- Settles O52: each of the 18 registers is listed and shown. -/
theorem hostReadsReturnTheRegister : Obligations.HostReadsReturnTheRegister := by
  intro s rest hb n v hm hi
  obtain ⟨r, hr, rfl⟩ := regValue_of_number hm
  rw [step_hostRead hi, hostRead_shown (s := { s with inbox := rest }) hr (.inl hb)]
  rfl

/-- Settles O54: below the capacity and the length a byte is shown; all of `WBUF` counts as below its length. -/
theorem bufferReadsReturnTheByte : Obligations.BufferReadsReturnTheByte := by
  intro s b i rest hb hc hlen hi
  have hv : i < s.validBytes b := by
    cases b
    case wbuf => exact hc
    all_goals exact hlen
  exact step_hostReadBuf_shown hi hb hc hv

end Sys2Proof.Machine
end

section
/-! SUPPORT. O49, O50, O53: the host's writes to registers and buffers while no transaction runs. -/

namespace Sys2Proof.Machine

/-! ## Registers -/

/-- Only the low `w` bits of a value written to a register of `w` bits are taken (10_state.md R44). -/
theorem ofNat_mod_two_pow (w v : Nat) : BitVec.ofNat w (v % 2 ^ w) = BitVec.ofNat w v :=
  BitVec.eq_of_toNat_eq (by simp)

/-- A write to a read-only or unlisted register has no effect. -/
theorem hostWrite_no_effect {reg : Nat}
    (h : reg ∈ [0x01, 0x09, 0x0A, 0x0B, 0x0C, 0x0D, 0x10, 0x11] ∨ 0x11 < reg) (v : Nat) (s : State) :
    hostWrite reg v s = .next s := by
  rcases h with h | h
  · fin_cases h <;> exact ite_self _
  · simp [hostWrite, regOfNumber_eq_none h]

/-- A write to a read-only buffer or beyond a buffer's end has no effect. -/
theorem hostWriteBuf_no_effect {s : State} {b : Buf} {i : Nat}
    (h : b = .txbuf ∨ b = .hbuf ∨ bufCapacity s.params b ≤ i) (v : Nat) : hostWriteBuf b i v s = .next s := by
  refine if_neg ?_
  rcases h with rfl | rfl | hc
  · simp [hostWritable]
  · simp [hostWritable]
  · simp [Nat.not_lt.mpr hc]

/-- Settles O49: a write to a register of `w` bits takes the value's low `w` bits. -/
theorem hostWritesTruncateOrHaveNoEffect : Obligations.HostWritesTruncateOrHaveNoEffect := by
  intro s rest v hb
  have hb : ¬ s.busy = true := by simp [hb]
  have h2 : BitVec.ofNat 2 (v % 4) = BitVec.ofNat 2 v := ofNat_mod_two_pow 2 v
  have h8 : BitVec.ofNat 8 (v % 256) = BitVec.ofNat 8 v := ofNat_mod_two_pow 8 v
  have h9 : BitVec.ofNat 9 (v % 512) = BitVec.ofNat 9 v := ofNat_mod_two_pow 9 v
  have h16 : BitVec.ofNat 16 (v % 65536) = BitVec.ofNat 16 v := ofNat_mod_two_pow 16 v
  refine ⟨fun hi => ?_, fun hi => ?_, fun hi => ?_, fun hi => ?_, fun hi => ?_, fun hi => ?_, fun hi => ?_,
    fun reg hreg hi => ?_, fun b i h hi => ?_⟩
  · exact (step_hostWrite hi).trans (if_neg hb)
  · rw [h9]
    exact (step_hostWrite hi).trans (if_neg hb)
  · rw [h8]
    exact (step_hostWrite hi).trans (if_neg hb)
  · rw [h8]
    exact (step_hostWrite hi).trans (if_neg hb)
  · rw [h16]
    exact (step_hostWrite hi).trans (if_neg hb)
  · rw [h16]
    exact (step_hostWrite hi).trans (if_neg hb)
  · rw [h2]
    exact (step_hostWrite hi).trans (if_neg hb)
  · exact (step_hostWrite hi).trans (hostWrite_no_effect hreg v _)
  · exact (step_hostWriteBuf hi).trans (hostWriteBuf_no_effect (by exact h) v)

theorem hostWrite_rxlen {s : State} (hb : s.busy = false) (v : Nat) :
    hostWrite 0x0E v s = .next (if s.params.rxMax < v then s.refuse .badLen else { s with rxlen := v }) := by
  simp only [hostWrite, regOfNumber, hb, Bool.false_eq_true, if_false]
  split <;> rfl

theorem hostWrite_plen {s : State} (hb : s.busy = false) (v : Nat) :
    hostWrite 0x0F v s = .next (if s.params.payMax < v then s.refuse .badLen else { s with plen := v }) := by
  simp only [hostWrite, regOfNumber, hb, Bool.false_eq_true, if_false]
  split <;> rfl

/-- Settles O50: above the maximum the write is refused, up to it the value is taken. -/
theorem lengthWritesAboveCapacityAreRefused : Obligations.LengthWritesAboveCapacityAreRefused := by
  intro s rest v hb
  constructor
  · intro hi
    rw [step_hostWrite hi, hostWrite_rxlen (s := { s with inbox := rest }) hb]
    exact ⟨fun h => congrArg _ (if_pos h), fun h => congrArg _ (if_neg (Nat.not_lt.mpr h))⟩
  · intro hi
    rw [step_hostWrite hi, hostWrite_plen (s := { s with inbox := rest }) hb]
    exact ⟨fun h => congrArg _ (if_pos h), fun h => congrArg _ (if_neg (Nat.not_lt.mpr h))⟩

/-! ## Buffers -/

theorem hostWriteBuf_poke {s : State} {b : Buf} {i : Nat} (hb : s.busy = false) (hw : hostWritable b = true)
    (hi : i < bufCapacity s.params b) (v : Nat) : hostWriteBuf b i v s = .next (s.poke b i (BitVec.ofNat 8 v)) :=
  if_pos (by simp [hb, hw, hi])

/-- The byte written reads back, every other byte of every buffer is as before. -/
theorem State.byteAt_poke (s : State) (b c : Buf) (i j : Nat) (v : Byte) :
    (s.poke b i v).byteAt c j = if c = b ∧ j = i then v else s.byteAt c j := by
  simp only [State.byteAt, buf_poke, State.poke_resets]
  by_cases hc : c = b
  · subst hc
    by_cases hj : j = i
    · simp [hj, Memory.lookup_insert_self]
    · simp [hj, Memory.lookup_insert_ne]
  · simp [hc]

/-- A byte put in a buffer the host may write changes no other field of the state. -/
theorem State.poke_frame (s : State) {b : Buf} (hw : hostWritable b = true) (i : Nat) (v : Byte) :
    s.poke b i v = { s with wbuf := (s.poke b i v).wbuf, rxbuf := (s.poke b i v).rxbuf, pbuf := (s.poke b i v).pbuf } := by
  cases b
  case wbuf | rxbuf | pbuf => rfl
  all_goals exact absurd hw Bool.false_ne_true

/-- A byte read below the length, from a state on which the read is placed. -/
theorem step_readBuf_placed {t : State} {b : Buf} {i v : Nat} (hb : t.busy = false) (hc : i < bufCapacity t.params b)
    (hv : i < t.validBytes b) (hbyte : t.byteAt b i = BitVec.ofNat 8 v) (rest : List Input) :
    step { t with inbox := .readBuf b i :: rest } = .next { t with inbox := rest, rdata := v % 256 } := by
  have hval : (t.byteAt b i).toNat = v % 256 := by rw [hbyte, BitVec.toNat_ofNat]
  rw [← hval]
  exact step_hostReadBuf_shown (s := { t with inbox := .readBuf b i :: rest }) rfl hb hc hv

/-- Settles O53: the write pokes the byte, and a read below the length shows it. -/
theorem bufferByteWrittenReadsBack : Obligations.BufferByteWrittenReadsBack := by
  intro s b i v rest hb hbuf hcap hi
  have hw : hostWritable b = true := by rcases hbuf with rfl | rfl | rfl <;> rfl
  have hstep := (step_hostWriteBuf hi).trans (hostWriteBuf_poke (s := { s with inbox := rest }) hb hw hcap v)
  have hbyte := State.byteAt_poke { s with inbox := rest } b b i i (BitVec.ofNat 8 v)
  rw [if_pos ⟨rfl, rfl⟩] at hbyte
  refine ⟨_, hstep, hbyte, fun c j hne => ?_, State.poke_frame _ hw i _, fun hlen rest' => ?_⟩
  · have hother : ¬ (c = b ∧ j = i) := by tauto
    exact (State.byteAt_poke ..).trans (if_neg hother)
  · exact step_readBuf_placed (by simpa using hb) (by simpa using hcap) hlen hbyte rest'

end Sys2Proof.Machine
end

section
/-! SUPPORT. O56, O57: the places and codes of the fields of `STATUS`, and the values after reset. -/

namespace Sys2Proof.Machine

/-- Settles O57: the reset values are those the definition of `State.reset` lists, `STATUS` put together from its fields. -/
theorem resetValues : Obligations.ResetValues := by
  unfold Obligations.ResetValues
  exact ⟨by decide, rfl, rfl, rfl, rfl, rfl, rfl, rfl, rfl, rfl, rfl, rfl, rfl, rfl, rfl, rfl, rfl, rfl⟩

/-- The fields of the status word, read back from their places: each is one of the parts appended. -/
theorem statusWord_places (b : Bool) (x : XState) (v d : Bool) (e : ErrCode) :
    (statusWord b x v d e).getLsbD 0 = b ∧ (statusWord b x v d e).extractLsb' 1 2 = xstateCode x ∧
      (statusWord b x v d e).getLsbD 3 = v ∧ (statusWord b x v d e).getLsbD 4 = d ∧
      (statusWord b x v d e).extractLsb' 5 3 = errCode e := by
  unfold statusWord
  refine ⟨?_, ?_, ?_, ?_, ?_⟩
  · simp only [BitVec.getLsbD_append]
    simp
  · exact (BitVec.extractLsb'_append_eq_of_le (by decide)).trans BitVec.extractLsb'_append_eq_right
  · simp only [BitVec.getLsbD_append]
    simp
  · simp only [BitVec.getLsbD_append]
    simp
  · exact (BitVec.extractLsb'_append_eq_of_le (by decide)).trans <|
      (BitVec.extractLsb'_append_eq_of_le (by decide)).trans <|
        (BitVec.extractLsb'_append_eq_of_le (by decide)).trans BitVec.extractLsb'_append_eq_left

/-- Settles O56: the fields stand at the places of the status word, in the codes the statement writes out. -/
theorem statusFieldPlaces : Obligations.StatusFieldPlaces := by
  intro s
  obtain ⟨hbusy, hx, hvok, hdvalid, herr⟩ := statusWord_places s.busy s.xstate s.vok s.dvalid s.err
  refine ⟨hbusy, hx.trans ?_, hvok, hdvalid, herr.trans ?_⟩
  · cases s.xstate <;> rfl
  · cases s.err <;> rfl

end Sys2Proof.Machine
end

section
/-! SUPPORT. O28, O34: what an instruction leaves of the outside, and the bytes waiting on the channel before a flush
(10_state.md R41, 20_memory.md R63, R78, R84). -/

namespace Sys2Proof.Machine

/-! ## The outside, which no instruction writes -/

/-- No instruction touches the channel's line, the answers and events to come, or what the latest read returned. -/
theorem exec_outside (i : Instr) (s : State) :
    NextSatisfies (fun t => t.line = s.line ∧ t.chan = s.chan ∧ t.inbox = s.inbox ∧ t.rdata = s.rdata) (exec i s) := by
  intro t he
  cases exec_effect i s t he <;> simp

/-- Settles O34: the operands are among what the host alone writes, the rest is the outside. -/
theorem noInstructionWritesOperands : Obligations.NoInstructionWritesOperands := by
  intro i s t he
  have h := exec_hostHeld i s t he
  simp only [State.hostHeld, Prod.mk.injEq] at h
  obtain ⟨hslave, hfc, hraddr, hqty, hdesc, hbudget, hwide, hwbuf, hresets⟩ := h
  exact ⟨hslave, hfc, hraddr, hqty, hdesc, hbudget, hwide, State.byteAt_congr (b := .wbuf) hwbuf hresets,
    exec_outside i s t he⟩

/-! ## Operations that carry the waiting bytes along -/

/-- The state with other bytes waiting on the channel. -/
def State.withLine (l : List Byte) (s : State) : State := { s with line := l }

theorem State.popAnswer_withLine (l : List Byte) (s : State) : (s.withLine l).popAnswer = s.popAnswer.withLine l := by
  simp only [State.popAnswer, State.withLine]
  split <;> rfl

theorem State.attemptFail_withLine (l : List Byte) (s : State) (c : Cause) :
    (s.withLine l).attemptFail c = (s.attemptFail c).withLine l := by
  by_cases h : s.attempts < s.cfgBudget
  · rw [s.attemptFail_retry c h, State.attemptFail_retry (s.withLine l) c h]
    rfl
  · rw [s.attemptFail_exhaust c h, State.attemptFail_exhaust (s.withLine l) c h]
    rfl

/-! ## Before a flush -/

/-- No step reads the waiting bytes before a flush discards them: no host event is pending, and the executor is idle, in
BUILD or in FLUSH. -/
structure State.BeforeFlush (s : State) : Prop where
  inbox : s.inbox = []
  phase : s.busy = true → s.phase = .build ∨ s.phase = .flush

/-- After a failed attempt comes BUILD, or the executor is idle. -/
theorem State.attemptFail_beforeFlush {s : State} (hi : s.inbox = []) (c : Cause) : (s.attemptFail c).BeforeFlush := by
  by_cases h : s.attempts < s.cfgBudget
  · rw [s.attemptFail_retry c h]
    exact ⟨hi, fun _ => .inl rfl⟩
  · rw [s.attemptFail_exhaust c h]
    exact ⟨hi, nofun⟩

/-- How a step before a flush treats the waiting bytes: with other bytes `l` it does the same. -/
inductive StepIgnoresLine (s : State) (l : List Byte) : Prop
  /-- The bytes are still waiting, and still before a flush. -/
  | kept (t : State) (hs : step s = .next t) (hl : step (s.withLine l) = .next (t.withLine l)) (ht : t.BeforeFlush)
  /-- The bytes are gone, or the step stops. -/
  | gone (h : step s = step (s.withLine l))

theorem stepBuild_ignoresLine {s : State} (l : List Byte) (hi : s.inbox = []) (hb : s.busy = true)
    (hp : s.phase = .build) : StepIgnoresLine s l := by
  have hs : step s = stepBuild s := step_build hi hb hp
  have hl : step (s.withLine l) = stepBuild (s.withLine l) := step_build hi hb hp
  cases hsel : selectRequest s.operands with
  | error e =>
    have hsel' : selectRequest (s.withLine l).operands = .error e := hsel
    exact .gone (by rw [hs, hl, stepBuild, stepBuild, hsel, hsel'])
  | ok i =>
    have hf := encodeRequest_of_select hsel s.operands_payload_length
    exact .kept _ (hs.trans (stepBuild_eq hp hf)) (hl.trans (stepBuild_eq (s := s.withLine l) hp hf))
      ⟨hi, fun _ => .inr rfl⟩

/-- A flush that succeeds discards the waiting bytes, so it leaves the same state whatever they were. -/
theorem stepFlush_withLine_ok {s : State} {r : List Byte} (l : List Byte) (h : s.answer = .ok r) :
    stepFlush (s.withLine l) = stepFlush s := by
  have hl : (s.withLine l).answer = .ok r := h
  rw [stepFlush, stepFlush, h, hl, s.popAnswer_withLine]
  rfl

theorem stepFlush_fail {s : State} (h : s.answer = .fail) :
    stepFlush s = .next (State.attemptFail .transport (State.log (.flush false) s.popAnswer)) := by
  rw [stepFlush, h]

/-- A flush that fails leaves the waiting bytes (log 21). -/
theorem stepFlush_withLine_fail {s : State} (l : List Byte) (h : s.answer = .fail) :
    stepFlush (s.withLine l) =
      .next ((State.attemptFail .transport (State.log (.flush false) s.popAnswer)).withLine l) := by
  rw [stepFlush_fail (s := s.withLine l) h, s.popAnswer_withLine]
  exact congrArg _ (State.attemptFail_withLine l (State.log (.flush false) s.popAnswer) .transport)

theorem stepFlush_ignoresLine {s : State} (l : List Byte) (hi : s.inbox = []) (hb : s.busy = true)
    (hp : s.phase = .flush) : StepIgnoresLine s l := by
  have hs : step s = stepFlush s := step_flush hi hb hp
  have hl : step (s.withLine l) = stepFlush (s.withLine l) := step_flush hi hb hp
  cases h : s.answer with
  | ok r => exact .gone (hs.trans ((stepFlush_withLine_ok l h).symm.trans hl.symm))
  | fail =>
    exact .kept _ (hs.trans (stepFlush_fail h)) (hl.trans (stepFlush_withLine_fail l h))
      (State.attemptFail_beforeFlush (by simpa using hi) _)

/-- With no host event pending and no transaction running a step changes nothing (42_transaction_executor.md R150). -/
theorem step_of_idle {s : State} (hi : s.inbox = []) (hb : s.busy = false) : step s = .next s :=
  (step_of_no_input hi).trans (if_neg (by simp [hb]))

/-- Before a flush every step does the same whatever bytes are waiting. -/
theorem State.BeforeFlush.stepIgnoresLine {s : State} (h : s.BeforeFlush) (l : List Byte) : StepIgnoresLine s l := by
  cases hb : s.busy with
  | true =>
    rcases h.phase hb with hp | hp
    · exact stepBuild_ignoresLine l h.inbox hb hp
    · exact stepFlush_ignoresLine l h.inbox hb hp
  | false => exact .kept s (step_of_idle h.inbox hb) (step_of_idle (s := s.withLine l) h.inbox hb) h

/-! ## Runs -/

/-- Two outcomes that differ in the waiting bytes alone, or stop alike. -/
def AlikeButForLine : Host.Outcome State Fault Refusal → Host.Outcome State Fault Refusal → Prop
  | .next t, .next u => t.withLine [] = u.withLine []
  | .fault a, .fault b => a = b
  | .refused a, .refused b => a = b
  | _, _ => False

theorem AlikeButForLine.refl (o : Host.Outcome State Fault Refusal) : AlikeButForLine o o := by
  cases o <;> exact rfl

/-- A first step with one outcome makes runs with one outcome. -/
theorem run_succ_congr {s t : State} (h : step s = step t) (k : Nat) :
    Sys2Proof.core.run (k + 1) s = Sys2Proof.core.run (k + 1) t := by
  have hc : Sys2Proof.core.step s = Sys2Proof.core.step t := h
  simp only [Host.Core.run, hc]

/-- Before a flush runs of any length are alike whatever bytes are waiting. -/
theorem State.BeforeFlush.run_alike {s : State} (h : s.BeforeFlush) (l : List Byte) (k : Nat) :
    AlikeButForLine (Sys2Proof.core.run k s) (Sys2Proof.core.run k (s.withLine l)) := by
  induction k generalizing s with
  | zero => exact rfl
  | succ k ih =>
    cases h.stepIgnoresLine l with
    | kept t hs hl ht =>
      rw [run_succ hs, run_succ hl]
      exact ih ht
    | gone hstep =>
      rw [run_succ_congr hstep]
      exact AlikeButForLine.refl _

/-- Settles O28: BUILD comes before a flush, and up to the flush that discards them no step looks at the waiting bytes. -/
theorem staleBytesNeverMatter : Obligations.StaleBytesNeverMatter := by
  intro s stale k hi hb hp
  have hs : s.BeforeFlush := ⟨hi, fun _ => .inl hp⟩
  exact hs.run_alike stale k

end Sys2Proof.Machine
end

section
/-! SUPPORT. O1, O2, O3: the decoder and the encoder undo each other in every code space (30_encoding.md R90 to R110). -/

namespace Sys2Proof

open Machine

/-! ## A request frame's body -/

/-- A body decodes from its header, its register address as a word, and its CRC. -/
theorem decodeFrame_header (p : Profile) (slave fc : Byte) (raddr : Half) (body : List Byte) :
    decodeFrame p (sealFrame (slave :: fc :: raddr.extractLsb' 8 8 :: raddr.extractLsb' 0 8 :: body)) =
      decodeBody p slave fc raddr body := by
  rw [decodeFrame_seal, half_extract]

theorem decodeBody_narrow {p : Profile} {slave fc : Byte} (hr : isReadFc fc = true) (hw : isWide slave fc p = false)
    (raddr : Half) (qty : Byte) : decodeBody p slave fc raddr [qty] = narrowRead fc slave raddr qty := by
  simp [decodeBody, hr, hw]

theorem decodeBody_wide {p : Profile} {slave fc : Byte} (hw : isWide slave fc p = true) (raddr qty : Half) :
    decodeBody p slave fc raddr [qty.extractLsb' 8 8, qty.extractLsb' 0 8] = wideRead fc slave raddr qty := by
  have hr : isReadFc fc = true := (isReadFc_iff fc).mpr ((isWide_iff slave fc p).mp hw).1
  simp only [decodeBody, hr, hw, if_true, half_extract]

theorem decodeBody_wrs {payload : List Byte} (h : payloadOk payload = true) (p : Profile) (slave : Byte)
    (raddr : Half) : decodeBody p slave 0x06#8 raddr payload = .ok (.wrs slave raddr payload) :=
  if_pos h

/-- The count byte of a write of at most 255 bytes holds the payload's length. -/
theorem decodeBody_wrm {payload : List Byte} (h : payloadOk payload = true) (p : Profile) (slave : Byte)
    (raddr : Half) :
    decodeBody p slave 0x10#8 raddr (BitVec.ofNat 8 payload.length :: payload) = .ok (.wrm slave raddr payload) := by
  have hl : payload.length ≤ 255 := (payloadOk_iff payload).mp h
  have hq : payload.length = (BitVec.ofNat 8 payload.length).toNat := by
    rw [BitVec.toNat_ofNat]
    omega
  exact if_pos hq

/-! ## Every row decodes from its bytes -/

theorem decode_encode_command {i : Instr} (hs : i.inSpace .command = true) : decode .command (encode i) = .ok i := by
  cases i
  case crc16 => rfl
  case verify => rfl
  case encode => rfl
  case decrsp => rfl
  case xact => rfl
  case decode => rfl
  all_goals exact absurd hs Bool.false_ne_true

/-- The wide test selects the format a read row's bytes are in (41_frame_codec.md R134). -/
theorem decode_encode_request {c : Params} {p : Profile} {i : Instr} (hw : i.wf c = true)
    (hs : i.inSpace (.request p) = true) : decode (.request p) (encode i) = .ok i := by
  cases i
  case rdhN slave raddr qty =>
    have hn : isWide slave 0x03#8 p = false := by simpa [Instr.inSpace, Space.isRequest] using hs
    exact (decodeFrame_header ..).trans (decodeBody_narrow rfl hn raddr qty)
  case rdhW slave raddr qty => exact (decodeFrame_header ..).trans (decodeBody_wide hs raddr qty)
  case rdiN slave raddr qty =>
    have hn : isWide slave 0x04#8 p = false := by simpa [Instr.inSpace, Space.isRequest] using hs
    exact (decodeFrame_header ..).trans (decodeBody_narrow rfl hn raddr qty)
  case rdiW slave raddr qty => exact (decodeFrame_header ..).trans (decodeBody_wide hs raddr qty)
  case wrs slave raddr payload => exact (decodeFrame_header ..).trans (decodeBody_wrs hw p slave raddr)
  case wrm slave raddr payload => exact (decodeFrame_header ..).trans (decodeBody_wrm hw p slave raddr)
  all_goals exact absurd hs Bool.false_ne_true

theorem decode_encode_response {c : Params} {fc : Byte} {i : Instr} (hw : i.wf c = true)
    (hs : i.inSpace (.response fc) = true) : decode (.response fc) (encode i) = .ok i := by
  cases i
  case exc03 addr code tail =>
    obtain rfl : fc = 0x03#8 := beq_iff_eq.mp hs
    exact congrArg _ (if_pos ((excTailOk_iff c tail).mp hw).1)
  case exc04 addr code tail =>
    obtain rfl : fc = 0x04#8 := beq_iff_eq.mp hs
    exact congrArg _ (if_pos ((excTailOk_iff c tail).mp hw).1)
  case exc06 addr code tail =>
    obtain rfl : fc = 0x06#8 := beq_iff_eq.mp hs
    exact congrArg _ (if_pos ((excTailOk_iff c tail).mp hw).1)
  case exc10 addr code tail =>
    obtain rfl : fc = 0x10#8 := beq_iff_eq.mp hs
    exact congrArg _ (if_pos ((excTailOk_iff c tail).mp hw).1)
  case rsp raw => exact congrArg _ (beq_iff_eq.mp hs)
  all_goals exact absurd hs Bool.false_ne_true

theorem decode_encode_mode {i : Instr} (hs : i.inSpace .mode = true) : decode .mode (encode i) = .ok i := by
  cases i
  case decHex sgn => cases sgn <;> rfl
  case decU => rfl
  case decS => rfl
  all_goals exact absurd hs Bool.false_ne_true

/-- Settles O1, space by space: only a request's and a response's bytes need the bounds of `Instr.wf`. -/
theorem decodeOfEncode : Obligations.DecodeOfEncode := by
  intro c sp i hw hs
  cases sp with
  | command => exact decode_encode_command hs
  | request p => exact decode_encode_request hw hs
  | response fc => exact decode_encode_response hw hs
  | mode => exact decode_encode_mode hs

/-! ## Every word that decodes is its row's bytes -/

/-- What decodes in the command space is one byte, a command code. -/
theorem decode_command_ok {bytes : List Byte} {i : Instr} (h : decode .command bytes = .ok i) :
    ∃ c, bytes = [c] ∧ decodeCommand c = .ok i :=
  match bytes, h with
  | [c], h => ⟨c, rfl, h⟩

/-- What decodes in the mode space is one byte, the value of `DESC` of a mode. -/
theorem decode_mode_ok {bytes : List Byte} {i : Instr} (h : decode .mode bytes = .ok i) :
    ∃ d : BitVec 2, bytes = [d.setWidth 8] ∧ decodeMode d = i := by
  match bytes, h with
  | [b], h =>
    simp only [decode] at h
    split at h
    · rename_i hb
      refine ⟨b.setWidth 2, ?_, by injection h⟩
      have hs : (b.setWidth 2).setWidth 8 = b := BitVec.eq_of_toNat_eq (by simp; omega)
      rw [hs]
    · exact absurd h (by simp)

/-- Settles O2, space by space. -/
theorem encodeOfDecode : Obligations.EncodeOfDecode := by
  intro sp bytes i h
  cases sp with
  | command =>
    obtain ⟨c, rfl, hc⟩ := decode_command_ok h
    exact encode_decodeCommand hc
  | request p =>
    obtain ⟨slave, fc, ah, al, body, rfl, hbody⟩ := decodeFrame_ok h
    exact encode_of_decodeBody hbody
  | response fc =>
    obtain rfl : classify fc bytes = i := by injection h
    exact encode_classify fc bytes
  | mode =>
    obtain ⟨d, rfl, rfl⟩ := decode_mode_ok h
    exact encode_decodeMode d

/-- Settles O3: the words are closed, and the decoder evaluates on them. -/
theorem decodeSpecWords : Obligations.DecodeSpecWords := by
  unfold Obligations.DecodeSpecWords
  decide

end Sys2Proof
end

section
/-! SUPPORT. O37, O51: what a write to `CMD` runs or refuses, and the row a step of the executor runs (30_encoding.md R103, R105,
R110, 42_transaction_executor.md R150, R153, R157). -/

namespace Sys2Proof.Machine

/-! ## A write to `CMD` -/

theorem hostCommand_ok {c : Byte} {i : Instr} (h : decode .command [c] = .ok i) (s : State) :
    hostCommand c s = exec i s := by
  simp only [hostCommand, h]

theorem hostCommand_error {c : Byte} {e : DecodeError} (h : decode .command [c] = .error e) (s : State) :
    hostCommand c s = .next (s.refuse .illegalCmd) := by
  simp only [hostCommand, h]

/-- A write to `CMD` while no transaction runs is the command of the value's low byte (10_state.md R24, R44). -/
theorem step_command {s : State} {v : Nat} {rest : List Input} (hi : s.inbox = .write 0x00 v :: rest)
    (hb : s.busy = false) : step s = hostCommand (BitVec.ofNat 8 v) { s with inbox := rest } :=
  (step_hostWrite hi).trans (if_neg (by simp [hb]))

/-- The reserved command codes (30_encoding.md R105). -/
theorem decodeCommand_reserved {c : Byte} (h : c.toNat = 0 ∨ 7 ≤ c.toNat) : decodeCommand c = .error .illegalCmd := by
  have hne : ∀ k : Byte, 1 ≤ k.toNat → k.toNat ≤ 6 → c ≠ k := by
    rintro k h1 h6 rfl
    omega
  simp [decodeCommand, hne]

/-- Settles O51: the low byte is a reserved code, which decodes to no command. -/
theorem reservedCommandsAreRefused : Obligations.ReservedCommandsAreRefused := by
  intro s rest c hb hc hi
  have hd : decodeCommand (BitVec.ofNat 8 c) = .error .illegalCmd := decodeCommand_reserved (by simpa using hc)
  exact (step_command hi hb).trans (hostCommand_error hd _)

/-! ## The rows the executor runs -/

theorem stepBuild_of_select {s t : State} {i : Instr} (hsel : selectRequest s.operands = .ok i)
    (he : exec i { s with attempts := s.attempts + 1 } = .next t) :
    stepBuild s = .next (State.log (.build t.attempts t.frame) { t with phase := .flush }) := by
  simp only [stepBuild, hsel, he]

/-- Settles O37: a write to `CMD` by the command it decodes to, BUILD by the row it selects, CHECK by the response's class. -/
theorem stepRunsTheDecodedInstruction : Obligations.StepRunsTheDecodedInstruction := by
  refine ⟨fun s v rest i hb hi hd => ?_, fun s t i hb hi hp hsel he => ?_, fun s i hb hi hp hd => ?_⟩
  · exact (step_command hi hb).trans (hostCommand_ok hd _)
  · exact (step_build hi hb hp).trans (stepBuild_of_select hsel he)
  · obtain rfl : classify s.fc s.response = i := by injection hd
    exact step_check hi hb hp

end Sys2Proof.Machine
end

section
/-! SUPPORT. O55: WAIT, arrivals and `pass`, and that the executor takes no event from the inbox (30_encoding.md R108,
10_state.md R41; logs 1, 5 and 24). -/

namespace Sys2Proof.Machine

/-! ## The executor leaves the events to come -/

/-- The outcome leaves the events to come as they are in `s`. -/
abbrev InboxStays (s : State) (o : Host.Outcome State Fault Refusal) : Prop :=
  NextSatisfies (fun t => t.inbox = s.inbox) o

theorem exec_inbox (i : Instr) (s : State) : InboxStays s (exec i s) := by
  intro t he
  obtain ⟨-, -, hinbox, -⟩ := exec_outside i s t he
  exact hinbox

theorem stepBuild_inbox (s : State) : InboxStays s (stepBuild s) := by
  unfold stepBuild
  split
  · simp
  · split
    · rename_i t ht
      exact .next (exec_inbox _ { s with attempts := s.attempts + 1 } t ht)
    · simp
    · simp

theorem stepFlush_inbox (s : State) : InboxStays s (stepFlush s) := by
  unfold stepFlush
  split <;> simp

theorem stepWrite_inbox (s : State) : InboxStays s (stepWrite s) := by
  unfold stepWrite
  split <;> simp

theorem stepRead_inbox (s : State) : InboxStays s (stepRead s) := by
  unfold stepRead
  split
  · simp
  · dsimp only
    split <;> simp

theorem stepExecutor_inbox (s : State) : InboxStays s (stepExecutor s) := by
  unfold stepExecutor
  split
  · split
    · exact stepBuild_inbox s
    · exact stepFlush_inbox s
    · exact stepWrite_inbox s
    · exact stepRead_inbox s
    · exact exec_inbox _ s
  · simp

theorem stepExecutor_idle {s : State} (hb : s.busy = false) : stepExecutor s = .next s :=
  if_neg (by simp [hb])

/-- Settles O55: while `BUSY` WAIT is the executor's step after a read of `STATUS`, and that step takes no event. -/
theorem waitAndArrivals : Obligations.WaitAndArrivals := by
  refine fun s rest => ⟨fun hi => ⟨fun hb => ?_, fun hb => ⟨?_, fun t ht => ?_⟩⟩, fun bytes hi => ?_,
    fun hi => ⟨?_, fun hb => ?_⟩⟩
  · exact step_wait_idle hi hb
  · exact step_wait_busy hi hb
  · rw [step_wait_busy hi hb] at ht
    exact (stepExecutor_inbox _ t ht).trans hi
  · exact step_arrive hi
  · exact step_pass hi
  · exact (step_pass hi).trans (stepExecutor_idle hb)

end Sys2Proof.Machine
end

section
/-! SUPPORT. O5 to O9: the CRC round trip and its residue, the bit-serial form of the step, `verify`, and the two commands
(40_crc_engine.md R124 to R129). -/

namespace Sys2Proof

open Machine

/-! ## Bytes in a 16-bit word -/

theorem zext_ushiftRight_byte (b : Byte) : (b.setWidth 16 : Half) >>> 8 = 0x0000#16 := by
  apply BitVec.eq_of_toNat_eq
  rw [BitVec.toNat_ushiftRight, BitVec.toNat_setWidth_of_le (by decide), Nat.shiftRight_eq_div_pow]
  exact Nat.div_eq_of_lt b.isLt

/-- The high byte is the low byte of the word shifted down. -/
theorem high_byte_eq_low_of_shift (r : Half) : r.extractLsb' 8 8 = (r >>> 8).extractLsb' 0 8 := by
  apply BitVec.eq_of_getLsbD_eq
  intro i h
  simp only [BitVec.getLsbD_extractLsb', BitVec.getLsbD_ushiftRight, Nat.zero_add]

/-- The number with bytes `hi`, `lo` in the form of R124: `lo | hi << 8`. -/
theorem half_eq_or (hi lo : Byte) : half hi lo = lo.setWidth 16 ||| (hi.setWidth 16 <<< 8) := by
  apply BitVec.eq_of_getLsbD_eq
  intro i h
  simp only [half, BitVec.getLsbD_append, BitVec.getLsbD_or, BitVec.getLsbD_setWidth, BitVec.getLsbD_shiftLeft]
  rcases Nat.lt_or_ge i 8 with hi8 | hi8
  · simp [hi8, h]
  · simp [Nat.not_lt.mpr hi8, BitVec.getLsbD_of_ge lo i hi8, h, show i - 8 < 16 by omega]

/-! ## The step -/

/-- Settles O6: eight turns of the loop are the byte shift and a look at the table, and the byte `b` is shifted out. -/
theorem bitSerialStepIsTableStep : Obligations.BitSerialStepIsTableStep := by
  intro r b
  have hshift : (r ^^^ b.setWidth 16) >>> 8 = r >>> 8 := by
    rw [BitVec.ushiftRight_xor_distrib, zext_ushiftRight_byte, BitVec.xor_zero]
  calc crcStep r b
      _ = ((r ^^^ b.setWidth 16) >>> 8) ^^^ crcTable ((r ^^^ b.setWidth 16).setWidth 8) := by rw [crcStep, hshift]
      _ = crcShift8 (r ^^^ b.setWidth 16) := (crcShift8_eq _).symm

/-- A register fed its own two bytes, low byte first, is shifted out. -/
theorem foldl_crcStep_own_bytes (r : Half) : (le2 r).foldl crcStep r = 0x0000#16 :=
  calc (le2 r).foldl crcStep r
      _ = crcStep (crcStep r (r.extractLsb' 0 8)) (r.extractLsb' 8 8) := rfl
      _ = r >>> 8 >>> 8 := by rw [crcStep_low, high_byte_eq_low_of_shift, crcStep_low]
      _ = (r.extractLsb' 8 8).setWidth 16 >>> 8 := by rw [high_byte_shift]
      _ = 0x0000#16 := zext_ushiftRight_byte _

/-- Settles O5: a sequence and its CRC is a sealed frame, and the CRC's bytes shift the register out. -/
theorem crcRoundTrip : Obligations.CrcRoundTrip :=
  fun b => ⟨verify_sealFrame b, (crc16_append b (crc16Bytes b)).trans (foldl_crcStep_own_bytes (crc16 b))⟩

/-- Settles O7: `verify` compares with the number of the trailing bytes, which is the one of R124. -/
theorem verifyComparesTrailingBytes : Obligations.VerifyComparesTrailingBytes :=
  ⟨fun _ h => verify_short h, fun body lo hi => by rw [verify_append_two, beq_iff_eq, half_eq_or]⟩

/-! ## The commands -/

theorem exec_crc16_idle {s : State} (hb : s.busy = false) :
    exec .crc16 s = .next { s with crcreg := crc16 s.response, err := .ok } :=
  if_neg (by simp [hb])

theorem exec_verify_idle {s : State} (hb : s.busy = false) :
    exec .verify s = .next { s with vok := verify s.response, err := .ok } :=
  if_neg (by simp [hb])

theorem response_of_rxlen_zero {s : State} (h : s.rxlen = 0) : s.response = [] :=
  List.eq_nil_of_length_eq_zero ((s.readBytes_length .rxbuf s.rxlen).trans h)

theorem response_of_rxlen_two {s : State} (h : s.rxlen = 2) :
    s.response = [s.byteAt .rxbuf 0, s.byteAt .rxbuf 1] := by
  rw [State.response, h]
  rfl

/-- Settles O8: CRC16 by the test of `BUSY`; of no bytes the CRC is the initial register. -/
theorem crc16CommandResult : Obligations.Crc16CommandResult := by
  refine fun s => ⟨fun hb => commandsIgnoredWhileBusy .crc16 s rfl hb, fun hb => exec_crc16_idle hb, fun hb h0 => ?_⟩
  rw [exec_crc16_idle hb, response_of_rxlen_zero h0]
  rfl

/-- Settles O9: VERIFY by the test of `BUSY`; fewer than two bytes are no frame, and FF FF is the CRC of no bytes. -/
theorem verifyCommandResult : Obligations.VerifyCommandResult := by
  refine ⟨decode_encode_command (i := .verify) rfl, fun s => ⟨fun hb => commandsIgnoredWhileBusy .verify s rfl hb,
    fun hb => exec_verify_idle hb, fun hb hlt => ?_, fun hb h2 hlo hhi => ?_⟩⟩
  · have hshort : s.response.length < 2 := by rwa [State.response, State.readBytes_length]
    rw [exec_verify_idle hb, verify_short hshort]
  · have hok : verify s.response = true := by
      rw [response_of_rxlen_two h2, hlo, hhi]
      exact verify_sealFrame []
    rw [exec_verify_idle hb, hok]

end Sys2Proof
end

section
/-! SUPPORT. O4, O10 to O15: the operand checks, the request rows, and the commands ENCODE and DECRSP
(41_frame_codec.md R130 to R146). -/

namespace Sys2Proof.Machine

/-! ## The checks on the operands -/

section
variable {fc slave : Byte} {qty : Half} {p : Profile}

theorem isWide_eq_false_of_isReadFc_eq_false (hr : isReadFc fc = false) : isWide slave fc p = false := by
  simp [isWide, hr]

theorem isReadFc_of_isWide (hw : isWide slave fc p = true) : isReadFc fc = true :=
  (isReadFc_iff fc).mpr ((isWide_iff slave fc p).mp hw).1

theorem isReadFc_eq_false_of_isWriteFc (hw : isWriteFc fc = true) : isReadFc fc = false := by
  rcases (isWriteFc_iff fc).mp hw with rfl | rfl <;> rfl

theorem isWriteFc_eq_false_of_isReadFc (hr : isReadFc fc = true) : isWriteFc fc = false := by
  rcases (isReadFc_iff fc).mp hr with rfl | rfl <;> rfl

theorem checkOperands_unlisted (hr : isReadFc fc = false) (hw : isWriteFc fc = false) :
    checkOperands fc qty slave p = some .illegalFc := by
  simp [checkOperands, hr, hw]

theorem checkOperands_write (hw : isWriteFc fc = true) :
    checkOperands fc qty slave p = if 255 < qty.toNat then some .badQty else none := by
  simp [checkOperands, isReadFc_eq_false_of_isWriteFc hw, hw]

theorem checkOperands_narrow (hr : isReadFc fc = true) (hn : isWide slave fc p = false) :
    checkOperands fc qty slave p = if 255 < qty.toNat then some .badQty else none := by
  simp [checkOperands, isWriteFc_eq_false_of_isReadFc hr, hr, hn]

theorem checkOperands_wide (hw : isWide slave fc p = true) : checkOperands fc qty slave p = none := by
  have hr := isReadFc_of_isWide hw
  simp [checkOperands, isWriteFc_eq_false_of_isReadFc hr, hr, hw]

/-- What `check` can answer: ILLEGAL_FC for an unlisted code, nothing for a wide read, and for a write or a narrow read
BAD_QTY above 255 (41_frame_codec.md R137). -/
theorem checkOperands_cases (fc : Byte) (qty : Half) (slave : Byte) (p : Profile) :
    (isReadFc fc = false ∧ isWriteFc fc = false ∧ isWide slave fc p = false ∧
      checkOperands fc qty slave p = some .illegalFc) ∨
    (isReadFc fc = true ∧ isWriteFc fc = false ∧ isWide slave fc p = true ∧ checkOperands fc qty slave p = none) ∨
    ((isWriteFc fc = true ∨ isReadFc fc = true) ∧ isWide slave fc p = false ∧
      checkOperands fc qty slave p = if 255 < qty.toNat then some .badQty else none) := by
  cases hw : isWriteFc fc with
  | true =>
    have hn : isWide slave fc p = false := isWide_eq_false_of_isReadFc_eq_false (isReadFc_eq_false_of_isWriteFc hw)
    exact .inr (.inr ⟨.inl rfl, hn, checkOperands_write hw⟩)
  | false =>
    cases hr : isReadFc fc with
    | false => exact .inl ⟨rfl, rfl, isWide_eq_false_of_isReadFc_eq_false hr, checkOperands_unlisted hr hw⟩
    | true =>
      cases hn : isWide slave fc p with
      | true => exact .inr (.inl ⟨rfl, rfl, rfl, checkOperands_wide hn⟩)
      | false => exact .inr (.inr ⟨.inr rfl, rfl, checkOperands_narrow hr hn⟩)

theorem checkOperands_eq_illegalFc_iff :
    checkOperands fc qty slave p = some .illegalFc ↔ isReadFc fc = false ∧ isWriteFc fc = false := by
  rcases checkOperands_cases fc qty slave p with ⟨hr, hw, -, hc⟩ | ⟨hr, -, -, hc⟩ | ⟨hfc, -, hc⟩
  · simp [hc, hr, hw]
  · simp [hc, hr]
  · rw [hc]
    rcases hfc with hfc | hfc <;> split <;> simp [hfc]

theorem checkOperands_eq_badQty_iff :
    checkOperands fc qty slave p = some .badQty ↔
      (isWriteFc fc = true ∨ isReadFc fc = true ∧ isWide slave fc p = false) ∧ 255 < qty.toNat := by
  rcases checkOperands_cases fc qty slave p with ⟨hr, hw, -, hc⟩ | ⟨-, hw, hn, hc⟩ | ⟨hfc, hn, hc⟩
  · simp [hc, hr, hw]
  · simp [hc, hw, hn]
  · simp [hc, hn, hfc]

theorem checkOperands_refusal {e : ErrCode} (h : checkOperands fc qty slave p = some e) :
    e = .illegalFc ∨ e = .badQty := by
  rcases checkOperands_cases fc qty slave p with ⟨-, -, -, hc⟩ | ⟨-, -, -, hc⟩ | ⟨-, -, hc⟩ <;> rw [hc] at h
  · exact .inl (by simpa using h.symm)
  · exact absurd h (by simp)
  · split at h
    · exact .inr (by simpa using h.symm)
    · exact absurd h (by simp)

end

/-- Settles O12: the refusals of `check` by the class of the function code. -/
theorem operandChecks : Obligations.OperandChecks := by
  intro fc qty slave p
  refine ⟨?_, ?_, fun e => checkOperands_refusal, isWide_iff slave fc p, checkOperands_wide⟩
  · rw [checkOperands_eq_illegalFc_iff, ← Bool.not_eq_true, ← Bool.not_eq_true, isReadFc_iff, isWriteFc_iff]
    tauto
  · rw [checkOperands_eq_badQty_iff, isWriteFc_iff, isReadFc_iff]

/-! ## The row the operand registers select -/

/-- `encode_request` of a state's operands by the row they select. -/
theorem State.encodeRequest_of_select {s : State} {i : Instr} (h : selectRequest s.operands = .ok i) :
    encodeRequest s.operands = .ok (encode i) :=
  Sys2Proof.encodeRequest_of_select h s.operands_payload_length

theorem encodeRequest_error_of_select {o : RequestOperands} {e : DecodeError} (h : selectRequest o = .error e) :
    ∃ c, encodeRequest o = .error c := by
  cases hc : checkOperands o.fc o.qty o.slave o.profile with
  | some c => exact ⟨c, (encodeRequest_error_iff o c).mpr hc⟩
  | none =>
    obtain ⟨i, hi⟩ := (checkOperands_none_iff o).mp hc
    exact absurd (h.symm.trans hi) (by simp)

/-- Settles O4: the row selected is a well-formed one of its space, and selecting none is the refusal of `check`. -/
theorem operandsSelectTheirFrame : Obligations.OperandsSelectTheirFrame := by
  refine fun s => ⟨fun i hi => ?_, fun e he => encodeRequest_error_of_select he⟩
  obtain ⟨hwf, hspace⟩ := select_wf_inSpace s.params hi s.operands_payload_le
  exact ⟨hwf, hspace, State.encodeRequest_of_select hi⟩

/-! ## The request rows -/

theorem State.storeTx_built (s : State) (frame : List Byte) : Built s (s.storeTx frame) frame := by
  obtain ⟨hframe, hlen, hrest⟩ := s.storeTx_spec frame
  exact ⟨hframe, hlen, hrest, rfl⟩

theorem buildFrame_where_allowed {s : State} (h : s.busy = false ∨ s.phase = .build) (frame : List Byte) :
    buildFrame frame s = .next (s.storeTx frame) :=
  if_pos (s.mayBuild_iff.mpr h)

theorem buildFrame_builds {s : State} (h : s.busy = false ∨ s.phase = .build) (frame : List Byte) :
    ∃ t, buildFrame frame s = .next t ∧ Built s t frame :=
  ⟨_, buildFrame_where_allowed h frame, s.storeTx_built frame⟩

theorem buildFrame_elsewhere {s : State} (hb : s.busy = true) (hp : s.phase ≠ .build) (frame : List Byte) :
    buildFrame frame s = .next s :=
  if_neg (by simp [State.mayBuild_iff, hb, hp])

/-- Settles O10: each read row builds the frame of its layout where a frame may be built. -/
theorem readRowsBuildTheirFrame : Obligations.ReadRowsBuildTheirFrame :=
  fun _ _ _ =>
    ⟨fun hm => ⟨fun _ => ⟨buildFrame_builds hm _, buildFrame_builds hm _⟩,
      fun _ => ⟨buildFrame_builds hm _, buildFrame_builds hm _⟩⟩,
    fun hb hp => ⟨fun _ => ⟨buildFrame_elsewhere hb hp _, buildFrame_elsewhere hb hp _⟩,
      fun _ => ⟨buildFrame_elsewhere hb hp _, buildFrame_elsewhere hb hp _⟩⟩⟩

/-- Settles O11: the two write rows, whose layouts hold the payload whole. -/
theorem writeRowsBuildTheirFrame : Obligations.WriteRowsBuildTheirFrame :=
  fun _ _ _ _ _ => ⟨fun hm => ⟨buildFrame_builds hm _, buildFrame_builds hm _⟩,
    fun hb hp => ⟨buildFrame_elsewhere hb hp _, buildFrame_elsewhere hb hp _⟩⟩

/-! ## ENCODE -/

theorem exec_encode_refused {s : State} {e : ErrCode} (hb : s.busy = false) (h : encodeRequest s.operands = .error e) :
    exec .encode s = .next { s with err := e } := by
  simp only [exec, execEncode, hb, h, Bool.false_eq_true, if_false, State.refuse]

theorem exec_encode_built {s : State} {frame : List Byte} (hb : s.busy = false)
    (h : encodeRequest s.operands = .ok frame) : exec .encode s = .next { s.storeTx frame with err := .ok } := by
  simp only [exec, execEncode, hb, h, Bool.false_eq_true, if_false]

/-- Settles O13: ENCODE by the test of `BUSY` and the answer of `encode_request`. -/
theorem encodeCommandResult : Obligations.EncodeCommandResult := by
  refine ⟨decode_encode_command (i := .encode) rfl, fun s => ⟨fun hb => commandsIgnoredWhileBusy .encode s rfl hb,
    fun e hb hc => ?_, fun hb hc => ?_⟩⟩
  · exact exec_encode_refused hb ((encodeRequest_error_iff s.operands e).mpr hc)
  · obtain ⟨i, -, -, -, hframe⟩ := State.select_of_legal hc
    exact ⟨_, _, hframe, exec_encode_built hb hframe, s.storeTx_built _⟩

/-- Settles O14: the row selected and ENCODE put the same frame in `TXBUF`. -/
theorem encodeRunsTheSelectedRow : Obligations.EncodeRunsTheSelectedRow := by
  intro s i hb hi
  obtain ⟨-, hspace⟩ := select_wf_inSpace s.params hi s.operands_payload_le
  exact ⟨_, (exec_request hspace).trans (buildFrame_where_allowed (.inl hb) _),
    exec_encode_built hb (State.encodeRequest_of_select hi)⟩

/-! ## DECRSP -/

theorem exec_decrsp_idle {s : State} (hb : s.busy = false) :
    exec .decrsp s = .next { s.storePayload (stripResponse s.response) with err := .ok } :=
  if_neg (by simp [hb])

theorem stripResponse_response (s : State) : stripResponse s.response = (s.response.drop 3).take (s.rxlen - 3 - 2) := by
  rw [stripResponse_eq, State.response, State.readBytes_length, Nat.sub_sub]

/-- Settles O15: DECRSP by the test of `BUSY`; of five bytes or fewer stripping leaves none. -/
theorem decrspCommandResult : Obligations.DecrspCommandResult := by
  refine ⟨decode_encode_command (i := .decrsp) rfl, fun s => ⟨fun hb => commandsIgnoredWhileBusy .decrsp s rfl hb,
    fun hb => ⟨_, exec_decrsp_idle hb, ?_, fun h5 => ?_, rfl⟩⟩⟩
  · have hstored := s.storePayload_spec (stripResponse s.response)
    rw [stripResponse_response] at hstored ⊢
    exact hstored
  · show (stripResponse s.response).length = 0
    rw [stripResponse_length, State.response, State.readBytes_length]
    omega

end Sys2Proof.Machine
end

section
/-! SUPPORT. O32: what WRITE sends, which ENCODE, BUILD and a reset alone write (41_frame_codec.md R146,
70_reset_and_hazards.md R230). -/

namespace Sys2Proof.Machine

/-- `TXLEN` and what the bytes of `TXBUF` depend on: its memory and the number of resets. -/
def State.frameHeld (s : State) : Nat × Memory × Nat := (s.txlen, s.txbuf, s.resets)

/-- The outcome leaves the frame as it is in `s`. -/
abbrev FrameStays (s : State) (o : Host.Outcome State Fault Refusal) : Prop :=
  NextSatisfies (fun t => t.frameHeld = s.frameHeld) o

/-! ## The instructions -/

/-- No command but ENCODE, and no response row, writes the frame. -/
theorem exec_frameHeld {i : Instr} (hi : isCommand i = true ∨ isResponse i = true) (hne : i ≠ .encode) (s : State) :
    FrameStays s (exec i s) := by
  intro t he
  cases exec_effect i s t he with
  | encode frame hb hf => exact absurd rfl hne
  | frame frame hc hr hm => simp [hc, hr] at hi
  | _ => simp [State.frameHeld]

/-- A response is classed as a response row. -/
theorem isResponse_classify (fc : Byte) (raw : List Byte) : isResponse (classify fc raw) = true := by
  unfold classify
  repeat' split
  all_goals rfl

theorem isCommand_of_decode {c : Byte} {i : Instr} (h : decode .command [c] = .ok i) : isCommand i = true := by
  simp only [decode, decodeCommand] at h
  repeat' split at h
  all_goals cases h <;> rfl

/-! ## The executor, outside BUILD -/

theorem stepFlush_frameHeld (s : State) : FrameStays s (stepFlush s) := by
  unfold stepFlush
  split <;> simp [State.frameHeld]

theorem stepWrite_frameHeld (s : State) : FrameStays s (stepWrite s) := by
  unfold stepWrite
  split <;> simp [State.frameHeld]

theorem stepRead_frameHeld (s : State) : FrameStays s (stepRead s) := by
  unfold stepRead
  split
  · simp [State.frameHeld]
  · dsimp only
    split <;> simp [State.frameHeld]

theorem stepCheck_frameHeld (s : State) : FrameStays s (stepCheck s) := by
  have hr := isResponse_classify s.fc s.response
  exact exec_frameHeld (.inr hr) (fun h => absurd (h ▸ hr) (by decide)) s

theorem stepExecutor_frameHeld {s : State} (h : ¬ (s.busy = true ∧ s.phase = .build)) :
    FrameStays s (stepExecutor s) := by
  unfold stepExecutor
  split
  · split
    · exact absurd ⟨‹_›, ‹_›⟩ h
    · exact stepFlush_frameHeld s
    · exact stepWrite_frameHeld s
    · exact stepRead_frameHeld s
    · exact stepCheck_frameHeld s
  · simp

/-! ## The host's accesses -/

theorem hostCommand_frameHeld {c : Byte} (hc : c ≠ 0x03#8) (s : State) : FrameStays s (hostCommand c s) := by
  unfold hostCommand
  split
  · rename_i i hi
    refine exec_frameHeld (.inl (isCommand_of_decode hi)) (fun hne => hc ?_) s
    have hcode : encode i = [c] := encode_decodeCommand hi
    rw [hne] at hcode
    exact (List.head_eq_of_cons_eq hcode).symm
  · simp [State.frameHeld]

theorem eq_of_regOfNumber_cmd {n : Nat} (h : regOfNumber n = some .cmd) : n = 0x00 := by
  unfold regOfNumber at h
  split at h
  case h_1 => rfl
  all_goals exact absurd h (by decide)

theorem hostWrite_frameHeld {s : State} {reg v : Nat} (h : ¬ (s.busy = false ∧ reg = 0x00 ∧ v % 256 = 0x03)) :
    FrameStays s (hostWrite reg v s) := by
  unfold hostWrite
  split
  · simp
  · rename_i hb
    split
    case h_2 hreg =>
      refine hostCommand_frameHeld (fun hc => h ⟨by simpa using hb, eq_of_regOfNumber_cmd hreg, ?_⟩) s
      simpa using congrArg BitVec.toNat hc
    case h_10 => split <;> simp [State.frameHeld]
    case h_11 => split <;> simp [State.frameHeld]
    all_goals simp [State.frameHeld]

theorem hostWriteBuf_frameHeld (b : Buf) (i v : Nat) (s : State) : FrameStays s (hostWriteBuf b i v s) := by
  unfold hostWriteBuf
  split
  · rename_i h
    simp only [Bool.and_eq_true] at h
    obtain ⟨⟨-, hw⟩, -⟩ := h
    rw [State.poke_frame s hw]
    exact .next rfl
  · simp

theorem hostRead_frameHeld (reg : Nat) (s : State) : FrameStays s (hostRead reg s) := by
  unfold hostRead
  split
  · simp [State.frameHeld]
  · split <;> simp [State.frameHeld]

theorem hostReadBuf_frameHeld (b : Buf) (i : Nat) (s : State) : FrameStays s (hostReadBuf b i s) := by
  unfold hostReadBuf
  split <;> simp [State.frameHeld]

/-! ## A step -/

/-- No step but a reset, BUILD and an ENCODE command writes the frame, whatever the event at the head of the inbox. -/
theorem step_frameHeld {s : State} (hr : s.inbox.head? ≠ some .reset) (hbuild : ¬ (s.busy = true ∧ s.phase = .build))
    (henc : ¬ (s.busy = false ∧ ∃ v, s.inbox.head? = some (.write 0x00 v) ∧ v % 256 = 0x03)) :
    FrameStays s (step s) := by
  match hi : s.inbox with
  | [] => rw [step_of_no_input hi]; exact stepExecutor_frameHeld hbuild
  | .pass :: rest => rw [step_pass hi]; exact stepExecutor_frameHeld (s := { s with inbox := rest }) hbuild
  | .wait :: rest =>
    cases hb : s.busy with
    | true => rw [step_wait_busy hi hb]; exact stepExecutor_frameHeld (s := s.answerRead _) hbuild
    | false => rw [step_wait_idle hi hb]; exact .next rfl
  | .write reg v :: rest =>
    rw [step_hostWrite hi]
    refine hostWrite_frameHeld (s := { s with inbox := rest }) fun ⟨hb, hreg, hv⟩ => henc ⟨hb, v, ?_, hv⟩
    rw [hi, hreg]
    rfl
  | .read _ :: _ => rw [step_hostRead hi]; exact hostRead_frameHeld _ _
  | .writeBuf _ _ _ :: _ => rw [step_hostWriteBuf hi]; exact hostWriteBuf_frameHeld _ _ _ _
  | .readBuf _ _ :: _ => rw [step_hostReadBuf hi]; exact hostReadBuf_frameHeld _ _ _
  | .arrive _ :: _ => rw [step_arrive hi]; exact .next rfl
  | .reset :: _ => exact absurd (by rw [hi]; rfl) hr

/-- Settles O32: the length is the frame's own, the bytes follow from the memory and the number of resets. -/
theorem onlyEncodeAndBuildWriteTheFrame : Obligations.OnlyEncodeAndBuildWriteTheFrame := by
  intro s t he hr hbuild henc
  have h := step_frameHeld hr hbuild henc t he
  simp only [State.frameHeld, Prod.mk.injEq] at h
  obtain ⟨htxlen, htxbuf, hresets⟩ := h
  exact ⟨htxlen, State.byteAt_congr (b := .txbuf) htxbuf hresets⟩

end Sys2Proof.Machine
end

section
/-! SUPPORT. O16 to O18: the command XACT and the response rows, each said once under its guard, and the state a failed attempt
leaves (42_transaction_executor.md R151, R152, R157 to R162). -/

namespace Sys2Proof.Machine

/-! ## XACT -/

section
variable {s : State}

theorem exec_xact_refused {e : ErrCode} (hb : s.busy = false) (h : s.operandError = some e) :
    exec .xact s = .next { s with err := e } := by
  simp only [exec, execXact, hb, h, Bool.false_eq_true, if_false, State.refuse]

theorem exec_xact_start (hb : s.busy = false) (h : s.operandError = none) (hn : s.cfgBudget ≠ 0) :
    exec .xact s = .next { s with
      err := .ok, attempts := 0, cause := .none, excode := 0#8, rxlen := 0
      xstate := .attempt, phase := .build, busy := true } := by
  simp only [exec, execXact, hb, h, hn, Bool.false_eq_true, if_false]

theorem exec_xact_empty (hb : s.busy = false) (h : s.operandError = none) (hn : s.cfgBudget = 0) :
    exec .xact s = .next { s with
      err := .ok, attempts := 0, cause := .none, excode := 0#8, rxlen := 0
      xstate := .exhausted, plen := 0, events := s.events ++ [.endExhausted 0] } := by
  simp only [exec, execXact, hb, h, hn, Bool.false_eq_true, if_false, if_true, State.exhaust]

end

/-- Settles O16: XACT by the test of `BUSY`, the operand check and the budget. -/
theorem xactCommandResult : Obligations.XactCommandResult :=
  fun s => ⟨commandsIgnoredWhileBusy .xact s rfl, fun _ hb hc => exec_xact_refused hb hc,
    fun hb hc hn => exec_xact_start hb hc hn, fun hb hc hn => exec_xact_empty hb hc hn⟩

/-! ## The response rows -/

/-- Failing an attempt, in the form the statements write out. -/
theorem State.attemptFail_eq_afterFailure (s : State) (c : Cause) : s.attemptFail c = afterFailure s c := by
  by_cases h : s.attempts < s.cfgBudget
  · rw [s.attemptFail_retry c h, afterFailure, if_pos h]
  · rw [s.attemptFail_exhaust c h, afterFailure, if_neg h]

theorem State.checking_eq_false {s : State} (h : s.busy = false ∨ s.phase ≠ .check) : s.checking = false := by
  rw [← Bool.not_eq_true, s.checking_iff]
  rcases h with hb | hp
  · simp [hb]
  · simp [hp]

theorem checkException_in_check {s : State} (hk : s.checking = true) (code : Byte) :
    checkException code s = .next (afterFailure { s with excode := code } .exception) := by
  rw [checkException_eq, if_pos hk, State.attemptFail_eq_afterFailure]

theorem checkException_elsewhere {s : State} (hk : s.checking = false) (code : Byte) :
    checkException code s = .next s := by
  simp [checkException_eq, hk]

/-- Settles O17: the meaning of each of the four rows is the exception check of its byte 2. -/
theorem exceptionRowsFailTheAttempt : Obligations.ExceptionRowsFailTheAttempt := by
  intro s addr code tail i hi
  have hexec : exec i s = checkException code s := by rcases hi with rfl | rfl | rfl | rfl <;> rfl
  rw [hexec]
  exact ⟨fun hb hp => checkException_in_check (s.checking_iff.mpr ⟨hb, hp⟩) code,
    fun h => checkException_elsewhere (State.checking_eq_false h) code⟩

theorem responseCause_empty {raw : List Byte} (h : raw.length = 0) : responseCause raw = some .empty := if_pos h

theorem responseCause_short {raw : List Byte} (h1 : 1 ≤ raw.length) (h5 : raw.length < 5) :
    responseCause raw = some .short := by
  rw [responseCause, if_neg (by omega), if_pos h5]

theorem responseCause_long {raw : List Byte} (h5 : 5 ≤ raw.length) :
    responseCause raw = if verify raw then none else some .crc := by
  rw [responseCause, if_neg (by omega), if_neg (by omega)]
  cases verify raw <;> rfl

/-- A response passes the tests of RSP exactly when it is well formed (41_frame_codec.md R139). -/
theorem responseCause_eq_none_iff (raw : List Byte) :
    responseCause raw = none ↔ 5 ≤ raw.length ∧ verify raw = true := by
  rcases Nat.lt_or_ge raw.length 5 with h5 | h5
  · rcases Nat.eq_zero_or_pos raw.length with h0 | h1
    · simp [responseCause_empty h0, h0]
    · simp [responseCause_short h1 h5, Nat.not_le.mpr h5]
  · simp [responseCause_long h5, h5]

theorem exec_rsp_reject {s : State} {raw : List Byte} {c : Cause} (hk : s.checking = true)
    (hc : responseCause raw = some c) : exec (.rsp raw) s = .next (afterFailure s c) := by
  simp only [exec, execRsp, hk, hc, if_true, State.attemptFail_eq_afterFailure]

theorem exec_rsp_accept {s : State} {raw : List Byte} (hk : s.checking = true) (hc : responseCause raw = none) :
    exec (.rsp raw) s = .next (s.succeed raw) := by
  simp only [exec, execRsp, hk, hc, if_true]

theorem exec_rsp_elsewhere {s : State} (hk : s.checking = false) (raw : List Byte) : exec (.rsp raw) s = .next s :=
  if_neg (by simp [hk])

/-- Success puts the stripped response in `PBUF` (42_transaction_executor.md R158). -/
theorem State.succeed_payloadIs (s : State) (raw : List Byte) :
    PayloadIs s (s.succeed raw) ((raw.drop 3).take (raw.length - 5)) := by
  rw [← stripResponse_eq]
  exact s.storePayload_spec (stripResponse raw)

/-- Settles O18: in CHECK by the first test that fails; elsewhere the row does nothing. -/
theorem responseRowEndsTheAttempt : Obligations.ResponseRowEndsTheAttempt := by
  refine fun s raw => ⟨fun hb hp => ?_, fun h => exec_rsp_elsewhere (State.checking_eq_false h) raw⟩
  have hk : s.checking = true := s.checking_iff.mpr ⟨hb, hp⟩
  refine ⟨fun h0 => ?_, fun h1 h5 => ?_, fun h5 hv => ?_, fun h5 hv => ?_⟩
  · exact exec_rsp_reject hk (responseCause_empty h0)
  · exact exec_rsp_reject hk (responseCause_short h1 h5)
  · exact exec_rsp_reject hk (by simp [responseCause_long h5, hv])
  · exact ⟨_, exec_rsp_accept hk ((responseCause_eq_none_iff raw).mpr ⟨h5, hv⟩), s.succeed_payloadIs raw, rfl⟩

end Sys2Proof.Machine
end

section
/-! SUPPORT. O19 to O24: the five phases of an attempt, each by the channel's answer or by the response
(42_transaction_executor.md R153 to R159). -/

namespace Sys2Proof.Machine

/-! ## BUILD -/

/-- Settles O19: legal operands have a frame, and BUILD stores it. -/
theorem buildStepResult : Obligations.BuildStepResult := by
  intro s hi hb hp hc
  obtain ⟨i, -, -, -, hframe⟩ := State.select_of_legal hc
  exact ⟨_, _, _, hframe, s.storeTx_built _, (step_build hi hb hp).trans (stepBuild_eq hp hframe), rfl⟩

/-! ## FLUSH and WRITE -/

theorem State.answer_ok_of_ne_fail {s : State} (h : s.answer ≠ .fail) : ∃ r, s.answer = .ok r := by
  cases ha : s.answer with
  | ok r => exact ⟨r, rfl⟩
  | fail => exact absurd ha h

section
variable {s : State}

theorem stepFlush_ok {r : List Byte} (h : s.answer = .ok r) :
    stepFlush s = .next { s.popAnswer with line := [], phase := .write, events := s.events ++ [.flush true] } := by
  simp [stepFlush, h, State.log]

theorem stepFlush_afterFailure (h : s.answer = .fail) :
    stepFlush s = .next (afterFailure { s.popAnswer with events := s.events ++ [.flush false] } .transport) := by
  simp [stepFlush_fail h, State.attemptFail_eq_afterFailure, State.log]

theorem stepWrite_ok {r : List Byte} (h : s.answer = .ok r) :
    stepWrite s = .next { s.popAnswer with phase := .read, events := s.events ++ [.tx s.frame true] } := by
  simp [stepWrite, h, State.log]

theorem stepWrite_afterFailure (h : s.answer = .fail) :
    stepWrite s = .next (afterFailure { s.popAnswer with events := s.events ++ [.tx s.frame false] } .transport) := by
  simp [stepWrite, h, State.attemptFail_eq_afterFailure, State.log]

end

/-- Settles O20, by the channel's answer. -/
theorem flushStepResult : Obligations.FlushStepResult := by
  refine fun s hi hb hp => ⟨fun h => ?_, fun h => (step_flush hi hb hp).trans (stepFlush_afterFailure h)⟩
  obtain ⟨r, hr⟩ := State.answer_ok_of_ne_fail h
  exact (step_flush hi hb hp).trans (stepFlush_ok hr)

/-- Settles O21, by the channel's answer. -/
theorem writeStepResult : Obligations.WriteStepResult := by
  refine fun s hi hb hp => ⟨fun h => ?_, fun h => (step_write hi hb hp).trans (stepWrite_afterFailure h)⟩
  obtain ⟨r, hr⟩ := State.answer_ok_of_ne_fail h
  exact (step_write hi hb hp).trans (stepWrite_ok hr)

/-! ## READ -/

/-- The state in which a read that returns `r` stores the bytes: the draw and the waiting bytes are used up, the call is in the
history (42_transaction_executor.md R156, R169). -/
def State.readDone (s : State) (r : List Byte) : State :=
  { s.popAnswer with line := [], events := s.events ++ [.rx (some r)] }

section
variable {s : State} {r : List Byte}

theorem stepRead_fail (h : s.answer = .fail) :
    stepRead s = .next (afterFailure { s.popAnswer with rxlen := 0, events := s.events ++ [.rx none] } .transport) := by
  simp [stepRead, h, State.attemptFail_eq_afterFailure, State.log]

theorem stepRead_overflow (h : s.answer = .ok r) (hl : s.params.rxMax < (s.line ++ r).length) :
    stepRead s =
      .next (afterFailure ((s.readDone (s.line ++ r)).storeRx ((s.line ++ r).take s.params.rxMax)) .overflow) := by
  simp only [stepRead, h, hl, if_true, State.attemptFail_eq_afterFailure, State.log, State.popAnswer_events,
    State.readDone]

theorem stepRead_ok (h : s.answer = .ok r) (hl : (s.line ++ r).length ≤ s.params.rxMax) :
    stepRead s = .next { (s.readDone (s.line ++ r)).storeRx (s.line ++ r) with phase := .check } := by
  simp only [stepRead, h, Nat.not_lt.mpr hl, if_false, State.log, State.popAnswer_events, State.readDone]

/-- Bytes stored after a read are the response, and the rest of `RXBUF` is as before the read. -/
theorem State.readDone_storeRx_responseIs (s : State) (r x : List Byte) :
    ResponseIs s ((s.readDone r).storeRx x) x := by
  obtain ⟨hresp, hlen, hrest⟩ := (s.readDone r).storeRx_spec x
  have hkept : ∀ j, (s.readDone r).byteAt .rxbuf j = s.byteAt .rxbuf j :=
    State.byteAt_congr (b := .rxbuf) s.popAnswer_rxbuf s.popAnswer_resets
  exact ⟨hresp, hlen, fun j hj => (hrest j hj).trans (hkept j)⟩

end

/-- Settles O22, by the channel's answer and the number of bytes available. -/
theorem readStepResult : Obligations.ReadStepResult := by
  refine fun s hi hb hp => ⟨fun h => ?_, fun r h hl => ?_, fun r h hl => ?_⟩
  · exact (step_read hi hb hp).trans (stepRead_fail h)
  · exact ⟨_, s.readDone_storeRx_responseIs _ _, rfl, (step_read hi hb hp).trans (stepRead_overflow h hl)⟩
  · exact ⟨{ (s.readDone (s.line ++ r)).storeRx (s.line ++ r) with phase := .check },
      s.readDone_storeRx_responseIs _ _, rfl, (step_read hi hb hp).trans (stepRead_ok h hl)⟩

/-! ## CHECK -/

theorem isException_iff (raw : List Byte) (fc : Byte) : isException raw fc = true ↔ raw[1]? = some (fc ||| 0x80#8) :=
  beq_iff_eq

theorem accepted_iff (raw : List Byte) (fc : Byte) :
    accepted raw fc = true ↔ 5 ≤ raw.length ∧ isException raw fc = false ∧ verify raw = true := by
  simp [accepted, and_assoc]

section
variable {s : State}

/-- A response of fewer than 5 bytes, or whose byte 1 is not the requested code with bit 7 set, is run as RSP. -/
theorem stepCheck_response (hc : s.operandError = none)
    (hno : s.response.length < 5 ∨ isException s.response s.fc = false) :
    stepCheck s = exec (.rsp s.response) s := by
  rcases classify_cases (fc_of_checkOperands hc) s.response with ⟨addr, code, tail, ht, hraw, -⟩ | ⟨-, hcl⟩
  · have h5 : 5 ≤ s.response.length := by rw [hraw]; simpa using ht
    have hx : isException s.response s.fc = true := by rw [hraw, isException_iff]; rfl
    exact absurd (hx.symm.trans (hno.resolve_left (Nat.not_lt.mpr h5))) (by simp)
  · rw [stepCheck, hcl]

/-- An exception response fails the attempt with its byte 2. -/
theorem stepCheck_exception (hk : s.checking = true) (hc : s.operandError = none) (h5 : 5 ≤ s.response.length)
    (hx : isException s.response s.fc = true) :
    ∃ code, s.response[2]? = some code ∧
      stepCheck s = .next (afterFailure { s with excode := code } .exception) := by
  rcases classify_cases (fc_of_checkOperands hc) s.response with ⟨addr, code, tail, -, hraw, hcl⟩ | ⟨hno, -⟩
  · refine ⟨code, by rw [hraw]; rfl, ?_⟩
    have hrun : stepCheck s = checkException code s := by
      rcases hcl with h | h | h | h <;> rw [stepCheck, h] <;> rfl
    rw [hrun, checkException_in_check hk]
  · exact absurd (hx.symm.trans (hno.resolve_left (Nat.not_lt.mpr h5))) (by simp)

/-- What CHECK does: an accepted response is success, any other fails the attempt, and only `EXCODE` may change before
(42_transaction_executor.md R157, 41_frame_codec.md R141). -/
theorem stepCheck_cases (hk : s.checking = true) (hc : s.operandError = none) :
    (accepted s.response s.fc = true ∧ stepCheck s = .next (s.succeed s.response)) ∨
    (accepted s.response s.fc = false ∧
      ∃ code c, stepCheck s = .next (afterFailure { s with excode := code } c)) := by
  by_cases hx : 5 ≤ s.response.length ∧ isException s.response s.fc = true
  · obtain ⟨h5, hx⟩ := hx
    obtain ⟨code, -, hstep⟩ := stepCheck_exception hk hc h5 hx
    exact .inr ⟨by simp [accepted, hx], code, _, hstep⟩
  · have hno : s.response.length < 5 ∨ isException s.response s.fc = false := by
      rcases Nat.lt_or_ge s.response.length 5 with h5 | h5
      · exact .inl h5
      · exact .inr (by simpa [h5] using hx)
    rw [stepCheck_response hc hno]
    cases hr : responseCause s.response with
    | none =>
      obtain ⟨h5, hv⟩ := (responseCause_eq_none_iff _).mp hr
      exact .inl ⟨(accepted_iff _ _).mpr ⟨h5, hno.resolve_left (by omega), hv⟩, exec_rsp_accept hk hr⟩
    | some c =>
      refine .inr ⟨?_, s.excode, c, exec_rsp_reject hk hr⟩
      rw [← Bool.not_eq_true, accepted_iff]
      rintro ⟨h5, -, hv⟩
      exact absurd (hr.symm.trans ((responseCause_eq_none_iff _).mpr ⟨h5, hv⟩)) (by simp)

end

/-- Settles O23: an exception response is run as its EXC row, any other as RSP. -/
theorem checkStepTests : Obligations.CheckStepTests := by
  intro s raw hi hb hp hc hraw
  obtain rfl : raw = s.response := hraw
  have hk : s.checking = true := s.checking_iff.mpr ⟨hb, hp⟩
  obtain ⟨hincheck, -⟩ := responseRowEndsTheAttempt s s.response
  obtain ⟨hempty, hshort, hcrc, hok⟩ := hincheck hb hp
  have hrsp (hno : s.response.length < 5 ∨ isException s.response s.fc = false) :
      step s = exec (.rsp s.response) s := (step_check hi hb hp).trans (stepCheck_response hc hno)
  have hnot (hx : s.response[1]? ≠ some (s.fc ||| 0x80#8)) : isException s.response s.fc = false := by
    rwa [← Bool.not_eq_true, isException_iff]
  refine ⟨fun h0 => ?_, fun h1 h5 => ?_, fun h5 hx => ?_, fun h5 hx hv => ?_, fun h5 hx hv => ?_⟩
  · exact (hrsp (.inl (by omega))).trans (hempty h0)
  · exact (hrsp (.inl h5)).trans (hshort h1 h5)
  · obtain ⟨code, hcode, hstep⟩ := stepCheck_exception hk hc h5 ((isException_iff _ _).mpr hx)
    exact ⟨code, hcode, (step_check hi hb hp).trans hstep⟩
  · exact (hrsp (.inr (hnot hx))).trans (hcrc h5 hv)
  · obtain ⟨t, ht, hpay, hframe⟩ := hok h5 hv
    exact ⟨t, (hrsp (.inr (hnot hx))).trans ht, by rw [hframe], by rw [hframe], hpay⟩

/-- A failed attempt is no success: the transaction goes on or is EXHAUSTED. -/
theorem afterFailure_not_success {s : State} (hb : s.busy = true) (c : Cause) :
    ¬ ((afterFailure s c).xstate = .success ∧ (afterFailure s c).busy = false) := by
  unfold afterFailure
  split <;> simp [hb]

/-- Settles O24: CHECK succeeds on an accepted response and fails the attempt on any other. -/
theorem checkSucceedsIffAccepted : Obligations.CheckSucceedsIffAccepted := by
  intro s t hi hb hp hc he
  rw [step_check hi hb hp] at he
  rcases stepCheck_cases (s.checking_iff.mpr ⟨hb, hp⟩) hc with ⟨hacc, hstep⟩ | ⟨hacc, code, c, hstep⟩
  · injection hstep.symm.trans he with ht
    simp [← ht, hacc]
  · injection hstep.symm.trans he with ht
    rw [← ht, hacc]
    exact iff_of_false (afterFailure_not_success (s := { s with excode := code }) hb c) Bool.false_ne_true

end Sys2Proof.Machine
end

section
/-! SUPPORT. O25, O27: a whole transaction, attempt after attempt, is the function `transact` of the answers it is given
(42_transaction_executor.md R150, R163, R168, R170). -/

namespace Sys2Proof.Machine

/-! ## The function of 42_transaction_executor.md R170 -/

@[simp] theorem State.upcoming_length (s : State) (n : Nat) : (s.upcoming n).length = n := by
  induction n generalizing s with
  | zero => rfl
  | succ n ih => simp [State.upcoming, ih]

/-- The frames a transaction hands to the channel: those of each attempt up to the first that succeeds. -/
def transactTx (c : Params) (fc : Byte) (frame : List Byte) : List ChanAnswer → List Event
  | [] => []
  | a :: rest =>
    match outcome c fc a with
    | .ok _ => attemptTx frame a
    | .fail _ => attemptTx frame a ++ transactTx c fc frame rest

section
variable {c : Params} {fc : Byte} {a : ChanAnswer} {rest : List ChanAnswer}

theorem transactFrom_of_ok {p : List Byte} (h : outcome c fc a = .ok p) (k : Nat) (last : Cause) :
    transactFrom c fc k last (a :: rest) = .success (k + 1) p := by
  rw [transactFrom, h]

theorem transactFrom_of_fail {cause : Cause} (h : outcome c fc a = .fail cause) (k : Nat) (last : Cause) :
    transactFrom c fc k last (a :: rest) = transactFrom c fc (k + 1) cause rest := by
  rw [transactFrom, h]

theorem transactTx_of_ok {p : List Byte} (h : outcome c fc a = .ok p) (frame : List Byte) :
    transactTx c fc frame (a :: rest) = attemptTx frame a := by
  rw [transactTx, h]

theorem transactTx_of_fail {cause : Cause} (h : outcome c fc a = .fail cause) (frame : List Byte) :
    transactTx c fc frame (a :: rest) = attemptTx frame a ++ transactTx c fc frame rest := by
  rw [transactTx, h]

/-- A response that is not accepted fails the attempt. -/
theorem outcome_of_not_accepted {r : List Byte} (c : Params) (h : accepted r fc = false) :
    ∃ cause, outcome c fc (.rx r) = .fail cause := by
  simp only [outcome]
  split_ifs with hl h0 h5 hx hv
  case neg =>
    have hacc : accepted r fc = true :=
      (accepted_iff r fc).mpr ⟨Nat.not_lt.mp h5, by simpa using hx, by simpa using hv⟩
    exact absurd (hacc.symm.trans h) (by simp)
  all_goals exact ⟨_, rfl⟩

end

/-- Calls that are all ok and responses none of which is accepted: every attempt is made and sends the frame, and the
transaction is exhausted (42_transaction_executor.md R163). -/
theorem transact_of_not_accepted {c : Params} {fc : Byte} {ans : List ChanAnswer}
    (h : ∀ a ∈ ans, ∃ r, a = .rx r ∧ accepted r fc = false) (frame : List Byte) (k : Nat) (last : Cause) :
    (∃ cause, transactFrom c fc k last ans = .exhausted (k + ans.length) cause) ∧
      transactTx c fc frame ans = List.replicate ans.length (.tx frame true) := by
  induction ans generalizing k last with
  | nil => exact ⟨⟨last, rfl⟩, rfl⟩
  | cons a rest ih =>
    obtain ⟨⟨r, rfl, hr⟩, hrest⟩ := List.forall_mem_cons.mp h
    obtain ⟨cause, ho⟩ := outcome_of_not_accepted c hr
    obtain ⟨hfrom, htx⟩ := ih hrest (k + 1) cause
    have hlen : k + (rest.length + 1) = k + 1 + rest.length := by omega
    rw [transactFrom_of_fail ho, transactTx_of_fail ho, htx, List.length_cons, hlen, List.replicate_succ]
    exact ⟨hfrom, rfl⟩

/-! ## Attempt after attempt -/

/-- What a transaction that comes to `r` leaves (42_transaction_executor.md R158, R162). -/
def State.TransactEnds (t : State) : TransactResult → Prop
  | .success k p => t.xstate = .success ∧ t.attempts = k ∧ t.payload = p ∧ t.plen = p.length
  | .exhausted n c => t.xstate = .exhausted ∧ t.attempts = n ∧ t.cause = c ∧ t.plen = 0

section
variable {s t : State}

theorem State.Attempted.operands_eq (h : s.Attempted t) : t.operands = s.operands :=
  State.operands_congr h.slave h.fc h.raddr h.qty h.wbuf h.cfgWide h.resets

/-- The answers after an attempt are those that its calls left. -/
theorem State.Attempted.upcoming_eq (h : s.Attempted t) (n : Nat) : s.upcoming (n + 1) = s.attemptAnswer :: t.upcoming n := by
  rw [State.upcoming, State.upcoming_congr h.chan h.chanDraws]

/-- Between two attempts with budget left the executor is in BUILD. -/
theorem State.AttemptEnds.build {c : Cause} (h : s.AttemptEnds (.fail c)) (hlt : s.attempts < s.cfgBudget) :
    s.busy = true ∧ s.phase = .build := by
  obtain ⟨-, hnext⟩ := h
  rwa [if_pos hlt] at hnext

/-- After the last attempt the transaction is exhausted. -/
theorem State.AttemptEnds.exhausted {c : Cause} (h : s.AttemptEnds (.fail c)) (hge : ¬ s.attempts < s.cfgBudget) :
    s.busy = false ∧ s.TransactEnds (.exhausted s.attempts c) := by
  obtain ⟨hcause, hnext⟩ := h
  rw [if_neg hge] at hnext
  obtain ⟨hb, hx, hp⟩ := hnext
  exact ⟨hb, hx, rfl, hcause, hp⟩

/-- Between two attempts, the latest of which failed with `c`, and with `n` left: at most `5 * n` steps end the transaction as
`transactFrom` says of the answers to come, by induction on the attempts left. -/
theorem run_transact {frame : List Byte} {n : Nat} {c : Cause} (hi : s.inbox = [])
    (hf : encodeRequest s.operands = .ok frame) (hn : s.attempts + n = s.cfgBudget) (hs : s.AttemptEnds (.fail c)) :
    ∃ k t, k ≤ 5 * n ∧ Sys2Proof.core.run k s = .next t ∧ t.busy = false ∧
      t.TransactEnds (transactFrom s.params s.fc s.attempts c (s.upcoming n)) ∧
      t.events.filter isTx = s.events.filter isTx ++ transactTx s.params s.fc frame (s.upcoming n) := by
  induction n generalizing s c with
  | zero =>
    obtain ⟨hb, hend⟩ := hs.exhausted (by omega)
    exact ⟨0, s, Nat.le_refl _, run_zero s, hb, hend, (List.append_nil _).symm⟩
  | succ n ih =>
    obtain ⟨hb, hp⟩ := hs.build (by omega)
    obtain ⟨k, u, hk, hrun, hkept, hend, htx⟩ := attempt_ends hi hb hp hf
    rw [hkept.upcoming_eq n]
    cases ho : outcome s.params s.fc s.attemptAnswer with
    | ok p =>
      rw [ho] at hend
      obtain ⟨hbusy, hx, hpay, hlen⟩ := hend
      rw [transactFrom_of_ok ho, transactTx_of_ok ho]
      exact ⟨k, u, by omega, hrun, hbusy, ⟨hx, hkept.attempts, hpay, hlen⟩, htx⟩
    | fail cause =>
      rw [ho] at hend
      have hleft : u.attempts + n = u.cfgBudget := by
        rw [hkept.attempts, hkept.cfgBudget]
        omega
      obtain ⟨m, t, hm, hrun', hbusy, hend', htx'⟩ :=
        ih (hkept.inbox.trans hi) (hkept.operands_eq ▸ hf) hleft hend
      rw [hkept.params, hkept.fc, hkept.attempts] at hend'
      rw [hkept.params, hkept.fc, htx, List.append_assoc] at htx'
      rw [transactFrom_of_fail ho, transactTx_of_fail ho]
      exact ⟨k + m, t, by omega, (run_append hrun m).trans hrun', hbusy, hend', htx'⟩

end

/-! ## From XACT on -/

/-- What an accepted XACT makes of `s`: the state before the first attempt, or the end when the budget is 0
(42_transaction_executor.md R151, R152). -/
structure State.Started (s t : State) : Prop where
  ends : t.AttemptEnds (.fail .none)
  attempts : t.attempts = 0
  params : t.params = s.params
  cfgBudget : t.cfgBudget = s.cfgBudget
  inbox : t.inbox = s.inbox
  fc : t.fc = s.fc
  operands : t.operands = s.operands
  chan : t.chan = s.chan
  chanDraws : t.chanDraws = s.chanDraws
  writes : t.events.filter isTx = s.events.filter isTx

theorem exec_xact_started {s t : State} (hb : s.busy = false) (hc : s.operandError = none)
    (he : exec .xact s = .next t) : s.Started t := by
  by_cases hn : s.cfgBudget = 0
  · injection (exec_xact_empty hb hc hn).symm.trans he with ht
    rw [← ht]
    exact ⟨by simp [State.AttemptEnds, hn, hb], rfl, rfl, rfl, rfl, rfl, rfl, rfl, rfl, by simp [isTx]⟩
  · injection (exec_xact_start hb hc hn).symm.trans he with ht
    rw [← ht]
    exact ⟨by simp [State.AttemptEnds, Nat.pos_of_ne_zero hn], rfl, rfl, rfl, rfl, rfl, rfl, rfl, rfl, rfl⟩

/-- Operands that have a frame are legal. -/
theorem State.legal_of_encodeRequest {s : State} {frame : List Byte} (h : encodeRequest s.operands = .ok frame) :
    s.operandError = none := by
  cases hc : s.operandError with
  | none => rfl
  | some e => exact absurd (h.symm.trans ((encodeRequest_error_iff s.operands e).mpr hc)) (by simp)

/-- A transaction, from the state an accepted XACT leaves: at most `5 * N` steps end it as `transact` says. -/
theorem run_of_started {s s₁ : State} {frame : List Byte} (hi : s.inbox = [])
    (hf : encodeRequest s.operands = .ok frame) (h : s.Started s₁) :
    ∃ k t, k ≤ 5 * s.cfgBudget ∧ Sys2Proof.core.run k s₁ = .next t ∧ t.busy = false ∧
      t.TransactEnds (transact s.params s.fc (s.upcoming s.cfgBudget)) ∧
      t.events.filter isTx = s.events.filter isTx ++ transactTx s.params s.fc frame (s.upcoming s.cfgBudget) := by
  have hbudget : s₁.attempts + s.cfgBudget = s₁.cfgBudget := by rw [h.attempts, h.cfgBudget, Nat.zero_add]
  have hrun := run_transact (h.inbox.trans hi) (h.operands ▸ hf) hbudget h.ends
  rwa [h.params, h.fc, h.attempts, h.writes, State.upcoming_congr h.chan h.chanDraws] at hrun

/-- Settles O25: the run ends as `transact` says, whichever of the two results it is. -/
theorem transactionIsTransact : Obligations.TransactionIsTransact := by
  intro s s₁ hi hb hc he
  obtain ⟨i, -, -, -, hf⟩ := State.select_of_legal hc
  obtain ⟨k, t, hk, hrun, hbusy, hend, -⟩ := run_of_started hi hf (exec_xact_started hb hc he)
  refine ⟨k, t, hk, hrun, hbusy, fun j p hr => ?_, fun n c hr => ?_⟩
  · rwa [hr] at hend
  · rwa [hr] at hend

/-- Settles O27: when no response is accepted every attempt sends the frame and `transact` is exhausted. -/
theorem exhaustionMakesExactlyNAttempts : Obligations.ExhaustionMakesExactlyNAttempts := by
  intro s s₁ frame hi hb hf he hans
  have hstart := exec_xact_started hb (State.legal_of_encodeRequest hf) he
  obtain ⟨k, t, -, hrun, hbusy, hend, htx⟩ := run_of_started hi hf hstart
  obtain ⟨⟨cause, hex⟩, hsent⟩ := transact_of_not_accepted (c := s.params) hans frame 0 .none
  rw [transact, hex, State.upcoming_length, Nat.zero_add] at hend
  rw [hsent, State.upcoming_length] at htx
  obtain ⟨hx, hattempts, -, hplen⟩ := hend
  exact ⟨k, t, hrun, hbusy, hx, hattempts, hplen, htx⟩

end Sys2Proof.Machine
end

section
/-! SUPPORT. O26, O29: the block never stops, and a transaction ends, since each step of the executor brings its end nearer
(42_transaction_executor.md R161, R164, R168, 70_reset_and_hazards.md R246). -/

namespace Sys2Proof.Machine

/-! ## No step stops -/

/-- The outcome is a next state: no fault and no refusal. -/
def Continues (o : Host.Outcome State Fault Refusal) : Prop := ∃ t, o = .next t

theorem Continues.next (t : State) : Continues (.next t) := ⟨t, rfl⟩

theorem stepBuild_continues {s : State} (hp : s.phase = .build) (hc : s.operandError = none) :
    Continues (stepBuild s) := by
  obtain ⟨i, -, -, -, hf⟩ := State.select_of_legal hc
  exact ⟨_, stepBuild_eq hp hf⟩

theorem stepFlush_continues (s : State) : Continues (stepFlush s) := by
  unfold stepFlush
  split <;> exact .next _

theorem stepWrite_continues (s : State) : Continues (stepWrite s) := by
  unfold stepWrite
  split <;> exact .next _

theorem stepRead_continues (s : State) : Continues (stepRead s) := by
  unfold stepRead
  split
  · exact .next _
  · dsimp only
    split <;> exact .next _

/-- Only BUILD could stop, and its operands are legal (42_transaction_executor.md R151). -/
theorem stepExecutor_continues {s : State} (h : s.Inv) : Continues (stepExecutor s) := by
  unfold stepExecutor
  split
  · rename_i hb
    split
    · exact stepBuild_continues ‹_› (h.operands_legal hb)
    · exact stepFlush_continues s
    · exact stepWrite_continues s
    · exact stepRead_continues s
    · exact exec_goes _ s
  · exact .next s

theorem hostCommand_continues (c : Byte) (s : State) : Continues (hostCommand c s) := by
  unfold hostCommand
  split
  · exact exec_goes _ s
  · exact .next _

theorem hostWrite_continues (reg value : Nat) (s : State) : Continues (hostWrite reg value s) := by
  unfold hostWrite
  split
  · exact .next _
  · split
    case h_2 => exact hostCommand_continues _ s
    case h_10 => split <;> exact .next _
    case h_11 => split <;> exact .next _
    all_goals exact .next _

theorem hostWriteBuf_continues (b : Buf) (i value : Nat) (s : State) : Continues (hostWriteBuf b i value s) := by
  unfold hostWriteBuf
  split <;> exact .next _

theorem hostRead_continues (reg : Nat) (s : State) : Continues (hostRead reg s) := by
  unfold hostRead
  split
  · exact .next _
  · split <;> exact .next _

theorem hostReadBuf_continues (b : Buf) (i : Nat) (s : State) : Continues (hostReadBuf b i s) := by
  unfold hostReadBuf
  split <;> exact .next _

/-- Settles O29, by the event at the head of the inbox. -/
theorem neverStops : Obligations.NeverStops := by
  intro s h
  match hi : s.inbox with
  | [] => exact step_of_no_input hi ▸ stepExecutor_continues h
  | .pass :: rest => exact step_pass hi ▸ stepExecutor_continues (h.withInbox rest)
  | .wait :: rest =>
    cases hb : s.busy with
    | true => exact step_wait_busy hi hb ▸ stepExecutor_continues (h.answerRead _)
    | false => exact ⟨_, step_wait_idle hi hb⟩
  | .write reg v :: rest => exact step_hostWrite hi ▸ hostWrite_continues reg v _
  | .read reg :: rest => exact step_hostRead hi ▸ hostRead_continues reg _
  | .writeBuf b i v :: rest => exact step_hostWriteBuf hi ▸ hostWriteBuf_continues b i v _
  | .readBuf b i :: rest => exact step_hostReadBuf hi ▸ hostReadBuf_continues b i _
  | .arrive bytes :: rest => exact ⟨_, step_arrive hi⟩
  | .reset :: rest => exact ⟨_, step_reset hi⟩

/-! ## Each step brings the end nearer -/

/-- How many steps of an attempt there may be from a phase after BUILD on; BUILD's own attempt is not counted yet. -/
def Phase.stepsLeft : Phase → Nat
  | .build => 0
  | .flush => 4
  | .write => 3
  | .read => 2
  | .check => 1

/-- How many steps a transaction may still take: five for each attempt not begun, and those of the running one. -/
def State.stepsLeft (s : State) : Nat :=
  if s.busy then 5 * (s.cfgBudget - s.attempts) + s.phase.stepsLeft else 0

theorem State.stepsLeft_busy {s : State} (hb : s.busy = true) :
    s.stepsLeft = 5 * (s.cfgBudget - s.attempts) + s.phase.stepsLeft := if_pos hb

theorem State.stepsLeft_idle {s : State} (hb : s.busy = false) : s.stepsLeft = 0 := if_neg (by simp [hb])

theorem Phase.stepsLeft_le (p : Phase) : p.stepsLeft ≤ 4 := by cases p <;> decide

theorem Phase.stepsLeft_pos {p : Phase} (hp : p ≠ .build) : 0 < p.stepsLeft := by
  cases p
  case build => exact absurd rfl hp
  all_goals decide

/-- At most `5 * N` steps are left of a transaction: after BUILD an attempt is counted. -/
theorem State.Inv.stepsLeft_le {s : State} (h : s.Inv) (hb : s.busy = true) : s.stepsLeft ≤ 5 * s.cfgBudget := by
  rw [State.stepsLeft_busy hb]
  by_cases hp : s.phase = .build
  · have h0 : s.phase.stepsLeft = 0 := by rw [hp]; rfl
    omega
  · have hcount := h.attempts_counted hb hp
    have hphase := s.phase.stepsLeft_le
    omega

/-- A step of a transaction from `s` to `t`: the budget and the events to come stay, the attempts stay within the budget, the
transaction goes on or ends in SUCCESS or EXHAUSTED, and fewer steps are left. -/
structure State.Progress (s t : State) : Prop where
  inbox : t.inbox = s.inbox
  cfgBudget : t.cfgBudget = s.cfgBudget
  attempts_le : t.attempts ≤ s.cfgBudget
  ended : t.busy = false → t.xstate = .success ∨ t.xstate = .exhausted
  nearer : t.stepsLeft < s.stepsLeft

/-- An attempt begun: counted, within the budget, and not at its end. -/
structure State.InAttempt (s : State) : Prop where
  busy : s.busy = true
  phase : s.phase ≠ .build
  within : s.attempts ≤ s.cfgBudget

theorem State.Inv.inAttempt {s : State} (h : s.Inv) (hb : s.busy = true) (hp : s.phase ≠ .build) : s.InAttempt :=
  ⟨hb, hp, (h.attempts_counted hb hp).2⟩

/-- What the count of steps left depends on but for the phase, and the events to come. -/
def State.tally (s : State) : Bool × Nat × Nat × List Input := (s.busy, s.cfgBudget, s.attempts, s.inbox)

theorem State.popAnswer_tally (s : State) : s.popAnswer.tally = s.tally := by simp [State.tally]

section
variable {s u : State}

theorem State.tally_eq_iff :
    u.tally = s.tally ↔ u.busy = s.busy ∧ u.cfgBudget = s.cfgBudget ∧ u.attempts = s.attempts ∧ u.inbox = s.inbox := by
  simp only [State.tally, Prod.mk.injEq]

theorem State.InAttempt.stepsLeft_pos (h : s.InAttempt) : 0 < s.stepsLeft := by
  have hpos := Phase.stepsLeft_pos h.phase
  rw [State.stepsLeft_busy h.busy]
  omega

/-- A later phase of the same attempt. -/
theorem State.InAttempt.progress_phase (h : s.InAttempt) (hu : u.tally = s.tally)
    (hp : u.phase.stepsLeft < s.phase.stepsLeft) : s.Progress u := by
  obtain ⟨hb, hn, ha, hi⟩ := State.tally_eq_iff.mp hu
  have hbu : u.busy = true := hb.trans h.busy
  refine ⟨hi, hn, ha ▸ h.within, fun hend => absurd (hbu.symm.trans hend) (by simp), ?_⟩
  rw [State.stepsLeft_busy hbu, State.stepsLeft_busy h.busy, hn, ha]
  omega

/-- A failed attempt: the next one is to begin, or the transaction ends. -/
theorem State.InAttempt.progress_fail (h : s.InAttempt) (hu : u.tally = s.tally) (c : Cause) :
    s.Progress (afterFailure u c) := by
  obtain ⟨hb, hn, ha, hi⟩ := State.tally_eq_iff.mp hu
  by_cases hlt : u.attempts < u.cfgBudget
  · rw [afterFailure, if_pos hlt]
    exact h.progress_phase (State.tally_eq_iff.mpr ⟨hb, hn, ha, hi⟩) (Phase.stepsLeft_pos h.phase)
  · rw [afterFailure, if_neg hlt]
    exact ⟨hi, hn, ha ▸ h.within, fun _ => .inr rfl, h.stepsLeft_pos⟩

theorem State.InAttempt.progress_succeed (h : s.InAttempt) (raw : List Byte) : s.Progress (s.succeed raw) :=
  ⟨rfl, rfl, h.within, fun _ => .inl rfl, h.stepsLeft_pos⟩

/-! ## The phases -/

/-- BUILD begins one of the attempts left. -/
theorem stepBuild_progress (h : s.Inv) (hb : s.busy = true) (hp : s.phase = .build) :
    ∃ t, stepBuild s = .next t ∧ s.Progress t := by
  obtain ⟨i, -, -, -, hf⟩ := State.select_of_legal (h.operands_legal hb)
  have hlt := h.attempts_remain hb hp
  refine ⟨_, stepBuild_eq hp hf, rfl, rfl, hlt, fun hend => absurd (hb.symm.trans hend) (by simp), ?_⟩
  simp only [State.stepsLeft, State.storeTx_busy, State.storeTx_cfgBudget, hb, hp, if_true, Phase.stepsLeft]
  omega

theorem stepFlush_progress (h : s.InAttempt) (hp : s.phase = .flush) : ∃ t, stepFlush s = .next t ∧ s.Progress t := by
  cases ha : s.answer with
  | ok r => exact ⟨_, stepFlush_ok ha, h.progress_phase s.popAnswer_tally (by simp [hp, Phase.stepsLeft])⟩
  | fail => exact ⟨_, stepFlush_afterFailure ha, h.progress_fail (by exact s.popAnswer_tally) _⟩

theorem stepWrite_progress (h : s.InAttempt) (hp : s.phase = .write) : ∃ t, stepWrite s = .next t ∧ s.Progress t := by
  cases ha : s.answer with
  | ok r => exact ⟨_, stepWrite_ok ha, h.progress_phase s.popAnswer_tally (by simp [hp, Phase.stepsLeft])⟩
  | fail => exact ⟨_, stepWrite_afterFailure ha, h.progress_fail (by exact s.popAnswer_tally) _⟩

theorem stepRead_progress (h : s.InAttempt) (hp : s.phase = .read) : ∃ t, stepRead s = .next t ∧ s.Progress t := by
  cases ha : s.answer with
  | ok r =>
    rcases Nat.lt_or_ge s.params.rxMax (s.line ++ r).length with hl | hl
    · exact ⟨_, stepRead_overflow ha hl, h.progress_fail (by exact s.popAnswer_tally) _⟩
    · exact ⟨_, stepRead_ok ha hl, h.progress_phase s.popAnswer_tally (by simp [hp, Phase.stepsLeft])⟩
  | fail => exact ⟨_, stepRead_fail ha, h.progress_fail (by exact s.popAnswer_tally) _⟩

theorem stepCheck_progress (h : s.InAttempt) (hp : s.phase = .check) (hc : s.operandError = none) :
    ∃ t, stepCheck s = .next t ∧ s.Progress t := by
  rcases stepCheck_cases (s.checking_iff.mpr ⟨h.busy, hp⟩) hc with ⟨-, hstep⟩ | ⟨-, code, c, hstep⟩
  · exact ⟨_, hstep, h.progress_succeed _⟩
  · exact ⟨_, hstep, h.progress_fail (by rfl) c⟩

/-- With no host event pending every step of a transaction brings its end nearer. -/
theorem step_progress (h : s.Inv) (hi : s.inbox = []) (hb : s.busy = true) : ∃ t, step s = .next t ∧ s.Progress t := by
  have hin (hp : s.phase ≠ .build) : s.InAttempt := h.inAttempt hb hp
  cases hp : s.phase with
  | build => exact step_build hi hb hp ▸ stepBuild_progress h hb hp
  | flush => exact step_flush hi hb hp ▸ stepFlush_progress (hin (by simp [hp])) hp
  | write => exact step_write hi hb hp ▸ stepWrite_progress (hin (by simp [hp])) hp
  | read => exact step_read hi hb hp ▸ stepRead_progress (hin (by simp [hp])) hp
  | check => exact step_check hi hb hp ▸ stepCheck_progress (hin (by simp [hp])) hp (h.operands_legal hb)

end

/-! ## A transaction ends -/

/-- A transaction with at most `m` steps left ends within `m` steps, by induction on `m`. -/
theorem run_ends {m : Nat} {s : State} (h : s.Inv) (hi : s.inbox = []) (hb : s.busy = true) (hm : s.stepsLeft ≤ m) :
    ∃ k t, k ≤ m ∧ Sys2Proof.core.run k s = .next t ∧ t.busy = false ∧
      (t.xstate = .success ∨ t.xstate = .exhausted) ∧ t.attempts ≤ s.cfgBudget ∧ t.cfgBudget = s.cfgBudget := by
  induction m generalizing s with
  | zero =>
    obtain ⟨t, -, hprog⟩ := step_progress h hi hb
    have hnearer := hprog.nearer
    omega
  | succ m ih =>
    obtain ⟨t, hstep, hprog⟩ := step_progress h hi hb
    cases hbt : t.busy with
    | false => exact ⟨1, t, by omega, run_succ hstep 0, hbt, hprog.ended hbt, hprog.attempts_le, hprog.cfgBudget⟩
    | true =>
      have hless : t.stepsLeft ≤ m := by
        have hnearer := hprog.nearer
        omega
      obtain ⟨k, u, hk, hrun, hend⟩ := ih (stepKeepsInvariant s t h hstep) (hprog.inbox.trans hi) hbt hless
      rw [hprog.cfgBudget] at hend
      exact ⟨k + 1, u, by omega, (run_succ hstep k).trans hrun, hend⟩

/-- Settles O26: at most `5 * N` steps are left from any moment of a transaction. -/
theorem transactionEnds : Obligations.TransactionEnds :=
  fun _ h hi hb => run_ends h hi hb (h.stepsLeft_le hb)

end Sys2Proof.Machine
end

section
/-! SUPPORT. O38 to O46: the values of the register decoder, their images in `DVAL` and `HBUF`, and the command DECODE with its
modes (43_register_decoder.md R180 to R191). -/

namespace Sys2Proof.Machine

/-! ## The number of a payload -/

theorem foldl_be (p : List Byte) (a : Nat) :
    p.foldl (fun acc b => 256 * acc + b.toNat) a = a * 256 ^ p.length + be p := by
  induction p generalizing a with
  | nil => simp [be]
  | cons b p ih =>
    rw [be, List.foldl_cons, List.foldl_cons, ih, ih (256 * 0 + b.toNat), List.length_cons]
    ring

/-- Byte 0 is the most significant (43_register_decoder.md R183). -/
theorem be_cons (b : Byte) (p : List Byte) : be (b :: p) = b.toNat * 256 ^ p.length + be p := by
  rw [be, List.foldl_cons, foldl_be, Nat.mul_zero, Nat.zero_add]

theorem be_lt (p : List Byte) : be p < 256 ^ p.length := by
  induction p with
  | nil => decide
  | cons b p ih =>
    have hb : (b.toNat + 1) * 256 ^ p.length ≤ 256 * 256 ^ p.length := Nat.mul_le_mul_right _ b.isLt
    rw [be_cons, List.length_cons, Nat.pow_succ']
    linarith

theorem be_lt_two_pow {p : List Byte} {n : Nat} (h : p.length ≤ n) : be p < 2 ^ (8 * n) := by
  rw [Nat.pow_mul]
  exact (be_lt p).trans_le (Nat.pow_le_pow_right (by decide) h)

theorem byte_bit7_iff (b : Byte) : b.getLsbD 7 = true ↔ 128 ≤ b.toNat := by
  rw [← BitVec.msb_eq_getLsbD_last b, BitVec.msb_eq_decide, decide_eq_true_iff]

/-- Bit 7 of byte 0 says whether the number is in the upper half of its range. -/
theorem bit7_head_iff (p : List Byte) : (p.headD 0x00#8).getLsbD 7 = true ↔ 256 ^ p.length ≤ 2 * be p := by
  cases p with
  | nil => decide
  | cons b p =>
    have hlow := be_lt p
    rw [List.headD_cons, byte_bit7_iff, be_cons, List.length_cons, Nat.pow_succ']
    constructor <;> intro h
    · have := Nat.mul_le_mul_right (256 ^ p.length) h
      linarith
    · by_contra hb
      have := Nat.mul_le_mul_right (256 ^ p.length) (show b.toNat + 1 ≤ 128 by omega)
      linarith

/-- The signed number of a payload is its `8n` bits read in two's complement (43_register_decoder.md R185). -/
theorem sbe_eq_toInt (p : List Byte) : sbe p = (BitVec.ofNat (8 * p.length) (be p)).toInt := by
  have hpow : 2 ^ (8 * p.length) = 256 ^ p.length := Nat.pow_mul 2 8 p.length
  rw [BitVec.toInt_eq_toNat_cond, BitVec.toNat_ofNat, Nat.mod_eq_of_lt (be_lt_two_pow le_rfl), hpow, sbe]
  by_cases h : 256 ^ p.length ≤ 2 * be p
  · rw [if_pos ((bit7_head_iff p).mpr h), if_neg (Nat.not_lt.mpr h)]
    push_cast
    rfl
  · rw [if_neg (mt (bit7_head_iff p).mp h), if_pos (Nat.lt_of_not_le h)]

/-- Settles O46: the value by its most significant byte, and the ranges of an `8n`-bit number. -/
theorem bigEndianValueAndRange : Obligations.BigEndianValueAndRange := by
  refine ⟨be_cons, be_lt, fun p _ => ?_⟩
  have hpow : (2 : Int) ^ (8 * p.length) = 256 ^ p.length := pow_mul 2 8 p.length
  rw [sbe_eq_toInt, ← hpow]
  exact ⟨BitVec.le_two_mul_toInt, BitVec.two_mul_toInt_lt⟩

/-! ## The image in `DVAL` -/

theorem dvalImage_be {c : Params} {p : List Byte} (h : p.length ≤ c.valBytes) : dvalImage c (be p) = be p := by
  rw [dvalImage, BitVec.ofInt_natCast, BitVec.toNat_ofNat, Nat.mod_eq_of_lt (be_lt_two_pow h)]

/-- The signed image is the sign extension of the payload's bits (43_register_decoder.md R187). -/
theorem dvalImage_sbe (c : Params) (p : List Byte) :
    dvalImage c (sbe p) = ((BitVec.ofNat (8 * p.length) (be p)).signExtend (8 * c.valBytes)).toNat := by
  rw [sbe_eq_toInt]
  rfl

/-! ## The hex string -/

/-- The two digits of byte `j` (43_register_decoder.md R184). -/
theorem flatMap_hexByte_getElem? (p : List Byte) (j : Nat) :
    (p.flatMap hexByte)[2 * j]? = p[j]?.map (fun b => hexDigit (b.extractLsb' 4 4)) ∧
      (p.flatMap hexByte)[2 * j + 1]? = p[j]?.map (fun b => hexDigit (b.extractLsb' 0 4)) := by
  induction p generalizing j with
  | nil => simp
  | cons b p ih =>
    cases j with
    | zero => exact ⟨rfl, rfl⟩
    | succ j => exact ih j

/-! ## The operand -/

@[simp] theorem State.payload_length (s : State) : s.payload.length = s.plen := s.readBytes_length .pbuf s.plen

theorem State.payload_getElem? {s : State} {j : Nat} (hj : j < s.plen) : s.payload[j]? = some (s.byteAt .pbuf j) := by
  rw [State.payload, State.readBytes_getElem?, if_pos hj]

theorem State.payload_headD {s : State} (h : 1 ≤ s.plen) : s.payload.headD 0x00#8 = s.byteAt .pbuf 0 := by
  rw [List.headD_eq_head?_getD, List.head?_eq_getElem?, State.payload_getElem? h, Option.getD_some]

theorem State.hexString_payload_length (s : State) : (hexString s.payload).length = 2 + 2 * s.plen := by
  rw [hexString_length, State.payload_length]

/-! ## The value decoded -/

section

variable {p : List Byte} {decimal signed : Bool}

theorem decodeValue_empty (h : p.length = 0) : decodeValue p decimal signed = .missing := if_pos h

theorem decodeValue_hex (h : p.length ≠ 0) : decodeValue p false signed = .hex (hexString p) := if_neg h

theorem decodeValue_unsigned (h : p.length ≠ 0) : decodeValue p true false = .int (be p) := if_neg h

theorem decodeValue_signed (h : p.length ≠ 0) : decodeValue p true true = .int (sbe p) := if_neg h

end

/-! ## The value delivered -/

section

variable (s : State)

theorem State.deliver_decodeValue_dvalid (p : List Byte) (decimal signed : Bool) :
    (s.deliver (decodeValue p decimal signed)).dvalid = decide (p.length ≠ 0) := by
  by_cases h : p.length = 0
  · simp [decodeValue_empty h, State.deliver, h]
  · cases decimal with
    | false => simp [decodeValue_hex h, State.deliver, h]
    | true => cases signed <;> simp [decodeValue_unsigned h, decodeValue_signed h, State.deliver, h]

@[simp] theorem State.deliver_payload (v : DecodedValue) : (s.deliver v).payload = s.payload := by
  rw [State.payload, State.deliver_plen]
  exact State.readBytes_congr fun j _ => State.byteAt_congr (b := .pbuf) (s.deliver_pbuf v) (s.deliver_resets v) j

theorem State.deliver_hex_byteAt (x : List Byte) (j : Nat) :
    (s.deliver (.hex x)).byteAt .hbuf j = (x[j]?).getD (s.byteAt .hbuf j) :=
  State.byteAt_of_store (s := s) (t := s.deliver (.hex x)) rfl rfl j

theorem State.deliver_hex_readBytes (x : List Byte) : (s.deliver (.hex x)).readBytes .hbuf x.length = x :=
  State.readBytes_of_store (s := s) (t := s.deliver (.hex x)) rfl rfl

theorem State.deliver_hex_byteAt_beyond {x : List Byte} {j : Nat} (hj : x.length ≤ j) :
    (s.deliver (.hex x)).byteAt .hbuf j = s.byteAt .hbuf j := by
  rw [State.deliver_hex_byteAt, List.getElem?_eq_none hj, Option.getD_none]

/-- The string in `HBUF` after its `0x`: two digits for each byte of the payload. -/
theorem State.deliver_hexString_digits {p : List Byte} {b : Byte} {j : Nat} (hj : p[j]? = some b) :
    (s.deliver (.hex (hexString p))).byteAt .hbuf (2 + 2 * j) = hexDigit (b.extractLsb' 4 4) ∧
      (s.deliver (.hex (hexString p))).byteAt .hbuf (3 + 2 * j) = hexDigit (b.extractLsb' 0 4) := by
  obtain ⟨hhi, hlo⟩ := flatMap_hexByte_getElem? p j
  rw [State.deliver_hex_byteAt, State.deliver_hex_byteAt, show 2 + 2 * j = 2 * j + 1 + 1 by omega,
    show 3 + 2 * j = 2 * j + 1 + 1 + 1 by omega]
  simp [hexString, hhi, hlo, hj]

/-- A result delivered again is the same result (43_register_decoder.md R190). -/
theorem State.deliver_deliver (v : DecodedValue) :
    ((s.deliver v).deliver v).dvalid = (s.deliver v).dvalid ∧ ((s.deliver v).deliver v).dval = (s.deliver v).dval ∧
      ((s.deliver v).deliver v).hlen = (s.deliver v).hlen ∧
      ∀ j, ((s.deliver v).deliver v).byteAt .hbuf j = (s.deliver v).byteAt .hbuf j := by
  cases v with
  | missing => exact ⟨rfl, rfl, rfl, fun _ => rfl⟩
  | hex x =>
    refine ⟨rfl, rfl, rfl, fun j => ?_⟩
    rw [State.deliver_hex_byteAt, State.deliver_hex_byteAt]
    cases x[j]? <;> rfl
  | int n => exact ⟨rfl, rfl, rfl, fun _ => rfl⟩

end

/-! ## DECODE under a mode, in an idle block -/

section

variable {s : State} {decimal signed : Bool}

theorem decodeUnder_refused (hb : s.busy = false) (hl : s.params.valBytes < s.plen) :
    decodeUnder true signed s = .next { s with err := .badLen } := by
  simp [decodeUnder, hb, hl, State.refuse]

theorem decodeUnder_delivers (hb : s.busy = false) (h : ¬ (decimal = true ∧ s.params.valBytes < s.plen)) :
    decodeUnder decimal signed s = .next (s.deliver (decodeValue s.payload decimal signed)) := by
  rw [decodeUnder, if_neg (by simp [hb]), if_neg (by simpa using h)]

/-- `SGN` is ignored in hex mode (30_encoding.md R107). -/
theorem decodeUnder_hex_signed (signed : Bool) (s : State) : decodeUnder false signed s = decodeUnder false false s := rfl

theorem decodeUnder_empty (hb : s.busy = false) (h0 : s.plen = 0) :
    decodeUnder decimal signed s = .next { s with dvalid := false, dval := 0, hlen := 0, err := .ok } := by
  rw [decodeUnder_delivers hb (by simp [h0]), decodeValue_empty (by simp [h0])]
  rfl

theorem decodeUnder_hex (hb : s.busy = false) (h0 : s.plen ≠ 0) :
    decodeUnder false signed s = .next (s.deliver (.hex (hexString s.payload))) := by
  rw [decodeUnder_delivers hb (by simp), decodeValue_hex (by simpa using h0)]

theorem decodeUnder_unsigned (hb : s.busy = false) (h0 : s.plen ≠ 0) (hl : s.plen ≤ s.params.valBytes) :
    decodeUnder true false s = .next { s with dval := be s.payload, hlen := 0, dvalid := true, err := .ok } := by
  rw [decodeUnder_delivers hb (by simpa using hl), decodeValue_unsigned (by simpa using h0), State.deliver,
    dvalImage_be (by simpa using hl)]

theorem decodeUnder_signed (hb : s.busy = false) (h0 : s.plen ≠ 0) (hl : s.plen ≤ s.params.valBytes) :
    decodeUnder true true s = .next { s with
      dval := ((BitVec.ofNat (8 * s.plen) (be s.payload)).signExtend (8 * s.params.valBytes)).toNat
      hlen := 0, dvalid := true, err := .ok } := by
  rw [decodeUnder_delivers hb (by simpa using hl), decodeValue_signed (by simpa using h0), State.deliver,
    dvalImage_sbe, State.payload_length]

end

/-! ## The modes -/

/-- Settles O40: the emptiness test comes before the mode is looked at. -/
theorem emptyPayloadGivesTheSentinel : Obligations.EmptyPayloadGivesTheSentinel := by
  intro s i hi hb h0
  cases i
  case decode | decHex | decU | decS => exact decodeUnder_empty hb h0
  all_goals exact absurd hi Bool.false_ne_true

/-- Settles O41: the payload's number fits `DVAL`. -/
theorem decimalUnsignedResult : Obligations.DecimalUnsignedResult := by
  intro s hb h1 hl
  have hfits : be s.payload < 2 ^ (8 * s.params.valBytes) := be_lt_two_pow (by simpa using hl)
  exact ⟨BitVec.ofNatLT (be s.payload) hfits, rfl, decodeUnder_unsigned hb (by omega) hl⟩

/-- Settles O42: sign extension keeps the two's-complement number. -/
theorem decimalSignedResult : Obligations.DecimalSignedResult := by
  intro s hb h1 hl
  refine ⟨_, ?_, decodeUnder_signed hb (by omega) hl⟩
  have hsbe := sbe_eq_toInt s.payload
  rw [sbe, State.payload_headD h1, State.payload_length] at hsbe
  rw [BitVec.toInt_signExtend_of_le (by omega), ← hsbe]
  rfl

/-- Settles O43: the hex string stored in `HBUF`, byte by byte. -/
theorem hexStringResult : Obligations.HexStringResult := by
  intro s sgn hb h1
  refine ⟨_, decodeUnder_hex hb (by omega), s.hexString_payload_length, ?_, ?_, fun j hj => ?_, fun j hj => ?_, rfl⟩
  · rw [State.deliver_hex_byteAt]
    rfl
  · rw [State.deliver_hex_byteAt]
    rfl
  · exact s.deliver_hexString_digits (State.payload_getElem? hj)
  · exact s.deliver_hex_byteAt_beyond (s.hexString_payload_length.trans_le hj)

/-- Settles O44: the two decimal modes, and DECODE where `ENC` selects one of them. -/
theorem longDecimalIsRefused : Obligations.LongDecimalIsRefused := by
  refine fun s hb hl => ⟨decodeUnder_refused hb hl, decodeUnder_refused hb hl, fun henc => ?_⟩
  show decodeUnder (s.desc.getLsbD 0) _ s = _
  rw [henc, decodeUnder_refused hb hl]

/-! ## The command -/

/-- DECODE is the mode of its two descriptor bits (43_register_decoder.md R182). -/
theorem exec_decode_of_desc {s : State} {decimal signed : Bool} (henc : s.desc.getLsbD 0 = decimal)
    (hsgn : s.desc.getLsbD 1 = signed) : exec .decode s = decodeUnder decimal signed s := by
  subst henc hsgn
  rfl

/-- Settles O38: each mode by its descriptor bits; all that does not refuse delivers a value. -/
theorem decodeRunsTheSelectedMode : Obligations.DecodeRunsTheSelectedMode := by
  refine fun s => ⟨fun henc => (exec_decode_of_desc henc rfl).trans (decodeUnder_hex_signed _ s),
    fun henc hsgn => exec_decode_of_desc henc hsgn, fun henc hsgn => exec_decode_of_desc henc hsgn,
    fun hb h => ⟨_, decodeUnder_delivers hb h, ?_, ?_⟩⟩
  · exact s.deliver_err _
  · rw [State.deliver_decodeValue_dvalid, State.payload_length]

/-- Settles O39: DECODE by the test of `BUSY`, the length of the payload and the descriptor. -/
theorem decodeCommandResult : Obligations.DecodeCommandResult := by
  refine ⟨decode_encode_command (i := .decode) rfl, fun s => ⟨fun hb => commandsIgnoredWhileBusy .decode s rfl hb,
    fun hb h0 => decodeUnder_empty hb h0, fun hb h0 henc => ?_, fun hb hl henc => ?_,
    fun hb h0 hl henc hsgn => ?_, fun hb h0 hl henc hsgn => ?_⟩⟩
  · exact ⟨_, (exec_decode_of_desc henc rfl).trans (decodeUnder_hex hb h0), s.hexString_payload_length,
      s.deliver_hex_readBytes _, fun _ hj => s.deliver_hex_byteAt_beyond hj, rfl⟩
  · exact (exec_decode_of_desc henc rfl).trans (decodeUnder_refused hb hl)
  · exact (exec_decode_of_desc henc hsgn).trans (decodeUnder_unsigned hb h0 hl)
  · exact (exec_decode_of_desc henc hsgn).trans (decodeUnder_signed hb h0 hl)

/-- Settles O45: DECODE keeps its operands, so a second one refuses as the first did or delivers the same value. -/
theorem decodeTwiceIsDecodeOnce : Obligations.DecodeTwiceIsDecodeOnce := by
  intro s t hb ht
  by_cases hlong : s.desc.getLsbD 0 = true ∧ s.params.valBytes < s.plen
  · obtain ⟨henc, hl⟩ := hlong
    have hfirst : exec .decode s = .next (s.refuse .badLen) := (exec_decode_of_desc henc rfl).trans (decodeUnder_refused hb hl)
    obtain rfl : s.refuse .badLen = t := Host.Outcome.next.inj (hfirst.symm.trans ht)
    have hagain := (exec_decode_of_desc (s := s.refuse .badLen) henc rfl).trans (decodeUnder_refused hb hl)
    exact ⟨_, hagain, rfl, rfl, rfl, fun _ => rfl, rfl, rfl, rfl⟩
  · have hfirst : exec .decode s = .next (s.deliver (decodeValue s.payload s.decimal s.signed)) :=
      decodeUnder_delivers hb hlong
    obtain rfl := Host.Outcome.next.inj (hfirst.symm.trans ht)
    generalize hv : decodeValue s.payload s.decimal s.signed = v
    have hagain : exec .decode (s.deliver v) = .next ((s.deliver v).deliver v) := by
      have henc : (s.deliver v).desc.getLsbD 0 = s.decimal := congrArg (·.getLsbD 0) (s.deliver_desc v)
      have hsgn : (s.deliver v).desc.getLsbD 1 = s.signed := congrArg (·.getLsbD 1) (s.deliver_desc v)
      rw [exec_decode_of_desc henc hsgn, decodeUnder_delivers (by simpa using hb)
        (by simpa [State.decimal] using hlong), State.deliver_payload, hv]
    obtain ⟨hdvalid, hdval, hhlen, hhbuf⟩ := s.deliver_deliver v
    exact ⟨_, hagain, hdvalid, hdval, hhlen, hhbuf, State.deliver_pbuf _ v, State.deliver_plen _ v, State.deliver_desc _ v⟩

end Sys2Proof.Machine
end

section
/-! SUPPORT. O58 and O59: what a reset leaves (70_reset_and_hazards.md R230, R232; 10_state.md R43) and that an idle block stays
as it is (70_reset_and_hazards.md R231, 42_transaction_executor.md R150). -/

namespace Sys2Proof.Machine

/-- With no transaction running and no outside event pending a run of any length ends where it began. -/
theorem run_of_idle {s : State} (hi : s.inbox = []) (hb : s.busy = false) (k : Nat) :
    Sys2Proof.core.run k s = .next s := by
  induction k with
  | zero => exact run_zero s
  | succ k ih => exact (run_succ (step_of_idle hi hb) k).trans ih

/-- Settles O59, by induction on the length of the run; the state after reset is idle with no event pending. -/
theorem idleBlockStaysIdle : Obligations.IdleBlockStaysIdle :=
  ⟨fun _ k hb hi => run_of_idle hi hb k, rfl, rfl⟩

/-- Settles O58: a step consumes the reset and restarts the block, whatever its state; `State.restart` keeps what R230 leaves. -/
theorem resetAbandonsEverything : Obligations.ResetAbandonsEverything :=
  fun _ _ hi => step_reset hi

end Sys2Proof.Machine
end
